-- ==== Sys2Proof/Word.lean ====
section
/-! DEFINITION. The word types of 00_scope.md R11: `u8`, `u16` and `u32`, all unsigned, bits numbered
from 0 (the least significant). Arithmetic on them is `BitVec` arithmetic, so `+` on a `Byte` is
addition modulo 256. -/

namespace Sys2Proof

/-- `u8` (R11). -/
abbrev Byte := BitVec 8

/-- `u16` (R11): the width of the CRC working register and of a checksum. -/
abbrev Half := BitVec 16

/-- `u32` (R11): the width of the host port's data, of every register and of a command word. -/
abbrev Word := BitVec 32

end Sys2Proof
end

