-- ==== Sys2Proof/Machine/Bits.lean ====
section
/-! DEFINITION. The bit-field and byte-order helpers of 00_scope.md R11 and R12, and the byte lanes of
20_memory.md R56, each said once. -/

namespace Sys2Proof.Machine

/-- `v[7:0]` of a `u16` (R11). -/
def loByte (v : Half) : Byte := v.extractLsb' 0 8

/-- `v[15:8]` of a `u16` (R11). -/
def hiByte (v : Half) : Byte := v.extractLsb' 8 8

/-- Byte lane `j` of a 32-bit value, bits `[8j+7:8j]` (R56). -/
def lane (v : Word) (j : Nat) : Byte := v.extractLsb' (8 * j) 8

/-- `le16(v)`, the low byte first (R12). -/
def le16 (v : Half) : List Byte := [loByte v, hiByte v]

/-- `le32(v)`, the least significant byte first (R12). -/
def le32 (v : Word) : List Byte := [lane v 0, lane v 1, lane v 2, lane v 3]

/-- `{b3, b2, b1, b0}`: the 32-bit value whose lane `j` is `bj` (R11, R56). -/
def packLanes (b0 b1 b2 b3 : Byte) : Word := b3 ++ b2 ++ b1 ++ b0

/-- `zeros(n)` (R12). -/
def zeros (n : Nat) : List Byte := List.replicate n 0

end Sys2Proof.Machine
end

