-- ==== Sys2Proof/Syntax.lean ====
section
/-! DEFINITION. The command set, one constructor for each row of spec/opcode_table.json
(30_encoding.md R83). A constructor holds the fields the spec gives the command: RSVD, and DATA8 of
every command but CRC_BYTE, are ignored (R84) and are no field of the instruction. -/

namespace Sys2Proof

inductive Instr where
  /-- NOP, OP = 0x00 (43_control.md R160). -/
  | nop
  /-- CRC_INIT, OP = 0x01 (40_crc.md R103). -/
  | crcInit
  /-- CRC_BYTE, OP = 0x02, with its data byte DATA8 (40_crc.md R104). -/
  | crcByte (data8 : Byte)
  /-- SEQ_NEXT, OP = 0x03 (41_sequence.md R121). -/
  | seqNext
  /-- ENC_HB, OP = 0x10 (42_frame.md R136). -/
  | encHb
  /-- ENC_ATT, OP = 0x11 (42_frame.md R137). -/
  | encAtt
  /-- A reserved opcode, with the opcode it is (43_control.md R161). -/
  | reserved (op : Byte)
  deriving DecidableEq, Repr

end Sys2Proof
end

