-- ==== Sys2Proof/WellFormed.lean ====
section
/-! DEFINITION. Which instruction terms are well formed: those that are the decoding of some command
word. The only check is that `reserved` holds a reserved opcode (30_encoding.md R83); every other
field takes every value (40_crc.md R104: "Every byte value 0x00 to 0xFF is legal"). -/

namespace Sys2Proof

/-- R83: the reserved opcodes are 0x04 to 0x0F and 0x12 to 0xFF. -/
def isReservedOp (op : Byte) : Bool :=
  (0x04#8 ≤ op && op ≤ 0x0F#8) || 0x12#8 ≤ op

/-- The well-formedness check on an instruction. -/
def Instr.wf : Instr → Bool
  | .nop => true
  | .crcInit => true
  | .crcByte _ => true
  | .seqNext => true
  | .encHb => true
  | .encAtt => true
  | .reserved op => isReservedOp op

end Sys2Proof
end

