-- ==== Sys2Proof/Decode.lean ====
section
/-! DEFINITION. The decoder (30_encoding.md R80 to R86), total on every command word and on any list of
bytes, and after it the encoder, written from the same encoding tables R81 and R83. -/

namespace Sys2Proof

/-- R81: OP is bits [7:0] of the command word. -/
def opField (w : Word) : Byte := w.extractLsb' 0 8

/-- R81: DATA8 is bits [15:8]. -/
def data8Field (w : Word) : Byte := w.extractLsb' 8 8

/-- R81: RSVD is bits [31:16]. -/
def rsvdField (w : Word) : Half := w.extractLsb' 16 16

/-- R83: the command that OP selects, with DATA8 for CRC_BYTE. -/
def decodeFields (op data8 : Byte) : Instr :=
  if op = 0x00#8 then .nop
  else if op = 0x01#8 then .crcInit
  else if op = 0x02#8 then .crcByte data8
  else if op = 0x03#8 then .seqNext
  else if op = 0x10#8 then .encHb
  else if op = 0x11#8 then .encAtt
  else .reserved op

/-- R84: decoding is total, and RSVD is ignored. -/
def decodeWord (w : Word) : Instr := decodeFields (opField w) (data8Field w)

/-- Why a list of bytes holds no command. -/
inductive DecodeRefusal where
  /-- Fewer than the four bytes of the one instruction length (R80, R86). Safe: nothing is run. -/
  | truncated
  deriving DecidableEq, Repr

/-- The decoder on bytes in lane order (20_memory.md R56): the instruction and the bytes after it. -/
def decode : List Byte → Except DecodeRefusal (Instr × List Byte)
  | b0 :: b1 :: b2 :: b3 :: rest => .ok (decodeWord (Machine.packLanes b0 b1 b2 b3), rest)
  | _ => .error .truncated

/-- R83: the opcode of an instruction. -/
def Instr.opcode : Instr → Byte
  | .nop => 0x00#8
  | .crcInit => 0x01#8
  | .crcByte _ => 0x02#8
  | .seqNext => 0x03#8
  | .encHb => 0x10#8
  | .encAtt => 0x11#8
  | .reserved op => op

/-- R81: the command word `{RSVD, DATA8, OP}`. -/
def commandWord (rsvd : Half) (data8 op : Byte) : Word := rsvd ++ data8 ++ op

/-- The command word of an instruction, with the bits that the spec says are ignored (R84) as the
arguments `data8` (used by every command but CRC_BYTE, whose DATA8 is its operand) and `rsvd`. -/
def encodeWith (data8 : Byte) (rsvd : Half) (i : Instr) : Word :=
  match i with
  | .nop => commandWord rsvd data8 0x00#8
  | .crcInit => commandWord rsvd data8 0x01#8
  | .crcByte b => commandWord rsvd b 0x02#8
  | .seqNext => commandWord rsvd data8 0x03#8
  | .encHb => commandWord rsvd data8 0x10#8
  | .encAtt => commandWord rsvd data8 0x11#8
  | .reserved op => commandWord rsvd data8 op

/-- The command word of an instruction with the ignored fields written 0, as R85 asks of software
and as the expansions of R88 have it. -/
def encode (i : Instr) : Word := encodeWith 0 0 i

/-- The instruction the decoder reads from a row's word, numbered as spec/opcode_table.json numbers
its bits: bits at or above `nbits` are 0, and a command is one 32-bit word (R86). -/
def decodeTableWord (nbits w : Nat) : Option Instr :=
  if nbits ≤ 32 then
    match decode (Machine.le32 (BitVec.ofNat 32 (w % 2 ^ nbits))) with
    | .ok (i, _) => some i
    | .error _ => none
  else none

end Sys2Proof
end

