-- ==== Sys2Proof/Config.lean ====
section
/-! DEFINITION. What is fixed when the block is built: the fixed values of 00_scope.md R9, the same in
every instance, and the configuration parameters of R10, which a build chooses. Nothing here is an
open value: the spec leaves no result of the block open, so there is no free value in this model. -/

namespace Sys2Proof

/-- The configuration parameters of 00_scope.md R10 that the block reads. `BASE_ADDR` is the platform's
and is an argument of `Machine.route`, since the block never sees it (20_memory.md R52). -/
structure Config where
  systemId       : Byte
  componentId    : Byte
  msgIdHeartbeat : Byte
  msgIdAttitude  : Byte
  deriving DecidableEq, Repr

/-- The values of R10 "in this design". -/
def Config.design : Config :=
  { systemId := 1, componentId := 1, msgIdHeartbeat := 0, msgIdAttitude := 30 }

/-- R9: the CRC polynomial in reflected form. -/
abbrev Config.crcPoly : Half := 0x8408#16

/-- R9: the CRC initial register value. -/
abbrev Config.crcInit : Half := 0xFFFF#16

/-- R9: the start marker. -/
abbrev Config.startMarker : Byte := 0xFE#8

/-- R9: the header length in bytes. -/
abbrev Config.headerLen : Nat := 6

/-- R9: the trailer length in bytes. -/
abbrev Config.trailerLen : Nat := 2

/-- R9: the heartbeat payload length in bytes. -/
abbrev Config.heartbeatLen : Nat := 9

/-- R9: the attitude payload length in bytes. -/
abbrev Config.attitudeLen : Nat := 28

/-- R134: the zero bytes that close the attitude payload. -/
abbrev Config.attitudeReservedLen : Nat := 12

/-- R9: the frame buffer's size, the longest frame (6 + 28 + 2). -/
abbrev Config.frameBufSize : Nat := 36

/-- R9: the register window's size in bytes. -/
abbrev Config.windowSize : Nat := 256

/-- R53: the only access width, in bytes. -/
abbrev Config.portBytes : Nat := 4

end Sys2Proof
end

