-- ==== Sys2Proof/Machine/State.lean ====
section
/-! DEFINITION. The state: the cells of 10_state.md R20, and beside them what a step reads and answers
at the host port. All of it is plain data. -/

namespace Sys2Proof.Machine

/-- FB, `array[0..35] of u8` (R20, R24). -/
abbrev FrameBuf := Vector Byte Config.frameBufSize

/-- The whole state of the block, the tuple of 10_state.md R20, cell by cell. -/
structure Cells where
  /-- CRC_STATE (R21): the working register of the CRC engine. -/
  crcState   : Half
  /-- SEQ (R22): the stored value of the sequence counter. -/
  seq        : Byte
  /-- ROLL (R23): a raw 32-bit pattern. -/
  roll       : Word
  /-- PITCH (R23): a raw 32-bit pattern. -/
  pitch      : Word
  /-- YAW (R23): a raw 32-bit pattern. -/
  yaw        : Word
  /-- FB (R24): the frame buffer. -/
  fb         : FrameBuf
  /-- FRAME_LEN (R25): the byte length of the frame in FB. -/
  frameLen   : Byte
  /-- TIME_BOOT_MS (R26): the attitude frame's time operand. -/
  timeBootMs : Word
  /-- ERR_ILLEGAL (R27): the sticky illegal-command flag. -/
  errIllegal : Bool
  deriving DecidableEq, Repr

/-- One transaction of the host's port (20_memory.md R51). `width` is the access width in bytes, so that
the accesses R53 refuses can be written down; `off` is the byte offset in the window. -/
inductive Transaction where
  | read (width : Nat) (off : BitVec 8)
  | write (width : Nat) (off : BitVec 8) (data : Word)
  deriving DecidableEq, Repr

/-- What can happen at the block's boundary (60_exceptions.md R208): a transaction of the host, or the
reset input. -/
inductive PortEvent where
  /-- The port accepts a transaction. -/
  | access (t : Transaction)
  /-- A reset, with the transaction that coincided with it, if one did (R203). -/
  | reset (coinciding : Option Transaction)
  deriving DecidableEq, Repr

/-- The state of the model. The cells of R20 are all the block's state; the three fields added here are
the model's own (INVENTORY.md, notes/assumptions/1.md, 3.md and 4.md). -/
structure State extends Cells where
  /-- The configuration parameters (00_scope.md R10): the argument of the model, which no step writes
  (10_state.md R29). -/
  config   : Config
  /-- The events still to come at the port, in the order the port accepts them (20_memory.md R62). -/
  port     : List PortEvent
  /-- The data word that the last performed transaction returned: `some` after a read, `none` after a
  write or a reset (43_control.md R166). No cell depends on it. -/
  response : Option Word
  deriving DecidableEq, Repr

/-- The reasons a step can stop with a fault. There is none: 43_control.md R166 ("no fault outcome and no
stuck outcome for any word-aligned 32-bit transaction") and 60_exceptions.md R200. -/
inductive Fault where
  deriving DecidableEq, Repr

/-- The reasons a step is refused. -/
inductive Refusal where
  /-- An instruction without a meaning yet. Raised by no arm of `exec`. Safe. -/
  | notModelled (mnemonic : String)
  /-- A transaction of another width than 32 bits or at an unaligned offset: "it is refused"
  (20_memory.md R53). Raised by `perform`. Safe: the spec gives such an access no step. -/
  | unsupportedAccess (width : Nat) (off : BitVec 8)
  deriving DecidableEq, Repr

/-- Every cell at its reset value (70_reset_and_hazards.md R250). -/
def Cells.reset : Cells :=
  { crcState := 0xFFFF#16, seq := 0, roll := 0, pitch := 0, yaw := 0, fb := Vector.replicate _ 0,
    frameLen := 0, timeBootMs := 0, errIllegal := false }

/-- The machine right after reset, in this design (R10), with no event at the port: "after reset it waits
for the host's first transaction" (R252). -/
def State.reset : State :=
  { Cells.reset with config := Config.design, port := [], response := none }

end Sys2Proof.Machine
end

