-- ==== Sys2Proof/Machine/Ops.lean ====
section
/-! DEFINITION. The named operations over the cells and the frame buffer that the meanings share.
There is no exception entry and no return from one beside them: the block raises no exception
(60_exceptions.md R200) and has no trap entry or return (R204). Its one error indication is the flag
of Machine/Flags.lean. -/

namespace Sys2Proof.Machine

/-- `FB[k]`; R24 gives the indices 0 to 35, and no rule reads another one. -/
def FrameBuf.byte (fb : FrameBuf) (k : Nat) : Byte := fb.toList.getD k 0

/-- `FB[k] <- b`, for an index of the buffer. -/
def FrameBuf.put (fb : FrameBuf) (k : Nat) (b : Byte) : FrameBuf := fb.setIfInBounds k b

/-- `for j in 0..len(bs)-1: FB[k+j] <- bs[j]` (R135). -/
def FrameBuf.putList (fb : FrameBuf) (k : Nat) : List Byte → FrameBuf
  | [] => fb
  | b :: bs => FrameBuf.putList (fb.put k b) (k + 1) bs

/-- `FB[a..b]`, both ends included (R12). -/
def FrameBuf.slice (fb : FrameBuf) (a b : Nat) : List Byte := (fb.toList.drop a).take (b + 1 - a)

/-- The whole buffer cleared (R135). -/
def FrameBuf.cleared : FrameBuf := Vector.replicate _ 0

/-- `CRC_STATE <- c`. -/
def State.setCrc (s : State) (c : Half) : State := { s with crcState := c }

/-- `SEQ <- v`. -/
def State.setSeq (s : State) (v : Byte) : State := { s with seq := v }

/-- `FB <- fb` and `FRAME_LEN <- n`. -/
def State.setFrame (s : State) (fb : FrameBuf) (n : Byte) : State := { s with fb := fb, frameLen := n }

/-- `TIME_BOOT_MS <- v`. -/
def State.setTimeBootMs (s : State) (v : Word) : State := { s with timeBootMs := v }

/-- `ROLL <- v`. -/
def State.setRoll (s : State) (v : Word) : State := { s with roll := v }

/-- `PITCH <- v`. -/
def State.setPitch (s : State) (v : Word) : State := { s with pitch := v }

/-- `YAW <- v`. -/
def State.setYaw (s : State) (v : Word) : State := { s with yaw := v }

/-- `ERR_ILLEGAL <- b`. -/
def State.setErr (s : State) (b : Bool) : State := { s with errIllegal := b }

/-- The port hands over its first event, and `rest` is still to come. No data word is returned until the
event returns one (43_control.md R166). -/
def State.accept (s : State) (rest : List PortEvent) : State := { s with port := rest, response := none }

/-- The transaction returns the data word `v`; no cell changes (43_control.md R165). -/
def State.respond (s : State) (v : Word) : State := { s with response := some v }

/-- Reset (70_reset_and_hazards.md R250): all cells take their reset values together, and the
configuration does not change (10_state.md R29). -/
def State.resetCells (s : State) : State := { s with toCells := Cells.reset, response := none }

end Sys2Proof.Machine
end

