-- ==== Sys2Proof/Machine/Flags.lean ====
section
/-! DEFINITION. The flags of STATUS (10_state.md R36): FRAME_VALID, derived (R28), and ERR_ILLEGAL,
sticky (R27). The block has no arithmetic flags. -/

namespace Sys2Proof.Machine

/-- FRAME_VALID, the derived bit `FRAME_LEN != 0` (R28). -/
def State.frameValid (s : State) : Bool := s.frameLen != 0

/-- The value STATUS reads as, `zext_32({ERR_ILLEGAL, FRAME_VALID})` (R36, R165). -/
def State.statusWord (s : State) : Word :=
  (BitVec.ofBool s.errIllegal ++ BitVec.ofBool s.frameValid).setWidth 32

/-- A reserved opcode sets ERR_ILLEGAL and nothing else (43_control.md R161, 60_exceptions.md R201). -/
def State.raiseIllegal (s : State) : State := s.setErr true

/-- A write of `v` to STATUS: bit 1 is write-1-to-clear, the other bits are ignored (43_control.md R162). -/
def State.writeStatus (s : State) (v : Word) : State :=
  if v.getLsbD 1 then s.setErr false else s

end Sys2Proof.Machine
end

