-- ==== Sys2Proof/Machine/Control.lean ====
section
/-! DEFINITION. NOP and the reserved opcodes (43_control.md R160, R161). -/

namespace Sys2Proof.Machine

/-- NOP: no state changes; in particular ERR_ILLEGAL is not cleared (R160). -/
def execNop (s : State) : Host.Outcome State Fault Refusal := .next s

/-- A reserved opcode: `ERR_ILLEGAL <- 1` and nothing else; the opcode is not captured (R161). -/
def execReserved (_op : Byte) (s : State) : Host.Outcome State Fault Refusal := .next s.raiseIllegal

end Sys2Proof.Machine
end

