-- ==== Sys2Proof/Machine/Operands.lean ====
section
/-! DEFINITION. Operand assembly (30_encoding.md R82): CRC_BYTE's data byte, and the payloads that the
two encode commands assemble (42_frame.md R133, R134). -/

namespace Sys2Proof.Machine

/-- `zext_16(DATA8)`: the data byte as it is XORed into the working register (R82). -/
def zextByte (b : Byte) : Half := b.setWidth 16

/-- The heartbeat payload: nine bytes 0x00 (R133). -/
def heartbeatPayload : List Byte := zeros Config.heartbeatLen

/-- The attitude payload, in wire order: time, roll, pitch, yaw, then 12 zero bytes (R134, and
70_reset_and_hazards.md R256 on the order). -/
def State.attitudePayload (s : State) : List Byte :=
  le32 s.timeBootMs ++ le32 s.roll ++ le32 s.pitch ++ le32 s.yaw ++ zeros Config.attitudeReservedLen

end Sys2Proof.Machine
end

