-- ==== Sys2Proof/Machine/Crc.lean ====
section
/-! DEFINITION. The CRC engine (40_crc.md): the checksum function of R100 and R101, and the commands
CRC_INIT (R103) and CRC_BYTE (R104). -/

namespace Sys2Proof.Machine

/-- One pass of R100's loop: bit 0 is tested before the logical shift, and the polynomial is XORed in
after it. -/
def crcShift (r : Half) : Half :=
  if r.getLsbD 0 then (r >>> 1) ^^^ Config.crcPoly else r >>> 1

/-- `repeat n times` (R100). -/
def crcShifts : Nat → Half → Half
  | 0, r => r
  | n + 1, r => crcShifts n (crcShift r)

/-- `crc_step(c, b)`, the per-byte update (R100). -/
def crcStep (c : Half) (b : Byte) : Half := crcShifts 8 (c ^^^ zextByte b)

/-- The working register after a list of bytes, first to last (R101, R105). -/
def crcFold (c : Half) (bs : List Byte) : Half := bs.foldl crcStep c

/-- `crc16(bs)` (R101). -/
def crc16 (bs : List Byte) : Half := ~~~ crcFold Config.crcInit bs

/-- CRC_INIT: `CRC_STATE <- 0xFFFF` (R103). -/
def execCrcInit (s : State) : Host.Outcome State Fault Refusal := .next (s.setCrc Config.crcInit)

/-- CRC_BYTE: `CRC_STATE <- crc_step(CRC_STATE, w[15:8])` (R104). -/
def execCrcByte (data8 : Byte) (s : State) : Host.Outcome State Fault Refusal :=
  .next (s.setCrc (crcStep s.crcState data8))

end Sys2Proof.Machine
end

