-- ==== Sys2Proof/Machine/Sequence.lean ====
section
/-! DEFINITION. The sequence counter (41_sequence.md). -/

namespace Sys2Proof.Machine

/-- `seq_next()`: SEQ advances by one modulo 256; the value it returns is SEQ afterwards (R120). -/
def State.advanceSeq (s : State) : State := s.setSeq (s.seq + 1)

/-- SEQ_NEXT: the counter advances, and no frame is encoded (R121). -/
def execSeqNext (s : State) : Host.Outcome State Fault Refusal := .next s.advanceSeq

end Sys2Proof.Machine
end

