-- ==== Sys2Proof/Machine/Frame.lean ====
section
/-! DEFINITION. The frame marshaller (42_frame.md): the encoding procedure of R135 and the commands
ENC_HB (R136) and ENC_ATT (R137). -/

namespace Sys2Proof.Machine

/-- R135's writes up to and with the payload: the buffer cleared, the header with the placeholder 0 for
the sequence byte, then the payload. -/
def headerAndPayload (cfg : Config) (mid : Byte) (payload : List Byte) : FrameBuf :=
  ((((((FrameBuf.cleared.put 0 Config.startMarker).put 1 (BitVec.ofNat 8 payload.length)).put 2 0).put
    3 cfg.systemId).put 4 cfg.componentId).put 5 mid).putList Config.headerLen payload

/-- R135's checksum and trailer: `crc16` over `FB[1..5+N]`, the start marker excluded (R132), stored low
byte first. -/
def putChecksum (fb : FrameBuf) (n : Nat) : FrameBuf :=
  let c := crc16 (fb.slice 1 (5 + n))
  (fb.put (6 + n) (loByte c)).put (7 + n) (hiByte c)

/-- `encode_frame(mid, payload)` (R135): header and payload, `FB[2] <- seq_next()`, then the checksum over
the final sequence byte. It neither reads nor writes CRC_STATE. -/
def State.encodeFrame (s : State) (mid : Byte) (payload : List Byte) : State :=
  let s' := s.advanceSeq
  let fb := (headerAndPayload s.config mid payload).put 2 s'.seq
  s'.setFrame (putChecksum fb payload.length) (BitVec.ofNat 8 (6 + payload.length + 2))

/-- ENC_HB: `encode_frame(MSG_ID_HEARTBEAT, zeros(9))` (R136). -/
def execEncHb (s : State) : Host.Outcome State Fault Refusal :=
  .next (s.encodeFrame s.config.msgIdHeartbeat heartbeatPayload)

/-- ENC_ATT: `encode_frame(MSG_ID_ATTITUDE, ...)` over the operand cells as they stand, which it neither
clears nor advances (R137). -/
def execEncAtt (s : State) : Host.Outcome State Fault Refusal :=
  .next (s.encodeFrame s.config.msgIdAttitude s.attitudePayload)

end Sys2Proof.Machine
end

