-- ==== Sys2Proof/Machine/Dispatch.lean ====
section
/-! DEFINITION. One arm per command: `exec(s, w)` of 43_control.md R166 on the decoded command. -/

namespace Sys2Proof.Machine

def exec (i : Instr) (s : State) : Host.Outcome State Fault Refusal :=
  match i with
  | .nop => Sys2Proof.Machine.execNop s
  | .crcInit => Sys2Proof.Machine.execCrcInit s
  | .crcByte data8 => Sys2Proof.Machine.execCrcByte data8 s
  | .seqNext => Sys2Proof.Machine.execSeqNext s
  | .encHb => Sys2Proof.Machine.execEncHb s
  | .encAtt => Sys2Proof.Machine.execEncAtt s
  | .reserved op => Sys2Proof.Machine.execReserved op s

end Sys2Proof.Machine
end

