-- ==== Sys2Proof/Machine/Registers.lean ====
section
/-! DEFINITION. The register map (10_state.md R34) and what a read and a write of each register does
(R35 to R47, 43_control.md R162 to R165). -/

namespace Sys2Proof.Machine

/-- The registers of the map. FRAMEi holds its index; every other offset is `reserved` (R47). -/
inductive Reg where
  | cmd | status | crcState | crcResult | seq | id | frameLen
  | timeBootMs | roll | pitch | yaw
  | frame (i : Fin 9)
  | reserved
  deriving DecidableEq, Repr

/-- The register of a word index `off[7:2]` (R34, 20_memory.md R52). -/
def Reg.ofIndex (k : Nat) : Reg :=
  match k with
  | 0 => .cmd
  | 1 => .status
  | 2 => .crcState
  | 3 => .crcResult
  | 4 => .seq
  | 5 => .id
  | 6 => .frameLen
  | 8 => .timeBootMs
  | 9 => .roll
  | 10 => .pitch
  | 11 => .yaw
  | k => if h : 16 ≤ k ∧ k < 25 then .frame ⟨k - 16, by omega⟩ else .reserved

/-- The register an offset selects: the block decodes `off[7:2]` (R52). -/
def Reg.ofOffset (off : BitVec 8) : Reg := Reg.ofIndex (off.extractLsb' 2 6).toNat

/-- The offset at which R34 places a register; for `reserved`, the first of the reserved offsets. -/
def Reg.offset : Reg → BitVec 8
  | .cmd => 0x00#8
  | .status => 0x04#8
  | .crcState => 0x08#8
  | .crcResult => 0x0C#8
  | .seq => 0x10#8
  | .id => 0x14#8
  | .frameLen => 0x18#8
  | .timeBootMs => 0x20#8
  | .roll => 0x24#8
  | .pitch => 0x28#8
  | .yaw => 0x2C#8
  | .frame i => 0x40#8 + BitVec.ofNat 8 (4 * i.val)
  | .reserved => 0x1C#8

/-- FRAMEi: the bytes `FB[4i..4i+3]` packed little-endian (R46). -/
def State.frameWord (s : State) (i : Nat) : Word :=
  packLanes (s.fb.byte (4 * i)) (s.fb.byte (4 * i + 1)) (s.fb.byte (4 * i + 2)) (s.fb.byte (4 * i + 3))

/-- ID: `{MSG_ID_ATTITUDE, MSG_ID_HEARTBEAT, COMPONENT_ID, SYSTEM_ID}` (R41). -/
def idWord (c : Config) : Word :=
  packLanes c.systemId c.componentId c.msgIdHeartbeat c.msgIdAttitude

/-- What a read of a register returns (R35 to R47, 43_control.md R165). -/
def State.readReg (s : State) : Reg → Word
  | .cmd => 0
  | .status => s.statusWord
  | .crcState => s.crcState.setWidth 32
  | .crcResult => (~~~ s.crcState).setWidth 32
  | .seq => s.seq.setWidth 32
  | .id => idWord s.config
  | .frameLen => s.frameLen.setWidth 32
  | .timeBootMs => s.timeBootMs
  | .roll => s.roll
  | .pitch => s.pitch
  | .yaw => s.yaw
  | .frame i => s.frameWord i.val
  | .reserved => 0

/-- `MemRead(off, 4)` (43_control.md R165). -/
def State.memRead (s : State) (off : BitVec 8) : Word := s.readReg (Reg.ofOffset off)

/-- What a write of `v` does to the cells. Read-only and reserved registers ignore it (43_control.md R164);
CMD has no storage (10_state.md R35), and the command a write to it selects is run by `perform`. -/
def State.writeReg (s : State) (v : Word) : Reg → State
  | .cmd => s
  | .status => s.writeStatus v
  | .crcState => s
  | .crcResult => s
  | .seq => s
  | .id => s
  | .frameLen => s
  | .timeBootMs => s.setTimeBootMs v
  | .roll => s.setRoll v
  | .pitch => s.setPitch v
  | .yaw => s.setYaw v
  | .frame _ => s
  | .reserved => s

end Sys2Proof.Machine
end

