-- ==== Sys2Proof/Machine/Transaction.lean ====
section
/-! DEFINITION. What one event at the port does: a transaction (20_memory.md R51, 43_control.md R166) or
a reset (70_reset_and_hazards.md R250). -/

namespace Sys2Proof.Machine

/-- The access width of a transaction, in bytes. -/
def Transaction.width : Transaction → Nat
  | .read n _ => n
  | .write n _ _ => n

/-- The byte offset of a transaction. -/
def Transaction.off : Transaction → BitVec 8
  | .read _ o => o
  | .write _ o _ => o

/-- R53: "The only access width is 32 bits, at a word-aligned offset (`off[1:0] = 0`)." -/
def Transaction.supported (t : Transaction) : Bool :=
  t.width == Config.portBytes && t.off.extractLsb' 0 2 == 0

/-- The events the block takes: every reset, and the supported transactions. -/
def PortEvent.supported : PortEvent → Bool
  | .access t => t.supported
  | .reset _ => true

/-- A supported transaction (43_control.md R166): a read returns the register and changes no cell, a write
to CMD runs the command its data is (30_encoding.md R80), another write goes to its register. -/
def performSupported (t : Transaction) (s : State) : Host.Outcome State Fault Refusal :=
  match t with
  | .read _ off => .next (s.respond (s.memRead off))
  | .write _ off v =>
    match Reg.ofOffset off with
    | .cmd => exec (decodeWord v) s
    | r => .next (s.writeReg v r)

/-- Any transaction: one of another width or at an unaligned offset has no step and is refused (R53). -/
def perform (t : Transaction) (s : State) : Host.Outcome State Fault Refusal :=
  if t.supported then performSupported t s else .refused (.unsupportedAccess t.width t.off)

/-- An event: a reset wins over a transaction that coincides with it, whose effect is lost
(60_exceptions.md R203). -/
def takeEvent (e : PortEvent) (s : State) : Host.Outcome State Fault Refusal :=
  match e with
  | .access t => perform t s
  | .reset _ => .next s.resetCells

/-- The write to CMD that delivers the command word `w` (R80). -/
def cmdWrite (w : Word) : PortEvent := .access (.write Config.portBytes Reg.cmd.offset w)

/-- The command an event delivers, if it is a supported write to CMD (R80: "No other access carries a
command"). -/
def PortEvent.command? : PortEvent → Option Instr
  | .access (.write n off w) =>
    if (Transaction.write n off w).supported && Reg.ofOffset off == .cmd then some (decodeWord w) else none
  | .access (.read _ _) => none
  | .reset _ => none

end Sys2Proof.Machine
end

