-- ==== Sys2Proof/Machine/Step.lean ====
section
/-! DEFINITION. One step (00_scope.md R8, 43_control.md R166): the block performs the first event at its
port. The block takes no step of its own (60_exceptions.md R208), so with no event at the port nothing
changes (70_reset_and_hazards.md R252; notes/assumptions/2.md). -/

namespace Sys2Proof.Machine

def step (s : State) : Host.Outcome State Fault Refusal :=
  match s.port with
  | [] => .next s
  | e :: rest => takeEvent e (s.accept rest)

/-- The next event at the port is the write to CMD of the word `w`, so that the next step runs exactly the
command `w` is. Bits at or above `nbits` are 0 (notes/assumptions/5.md). -/
def State.withFetchWord (s : State) (nbits w : Nat) : State :=
  { s with port := cmdWrite (BitVec.ofNat 32 (w % 2 ^ nbits)) :: s.port }

end Sys2Proof.Machine
end

