-- ==== Sys2Proof/Machine/Asm.lean ====
section
/-! DEFINITION. The host's assembly language (30_encoding.md R87, R88): its statements, what each expands
to, and the reading of a program's text. The result is a list of transactions, in order. It is the
host's side: nothing here is part of a step. The points of the text's form that R87 does not fix are
chosen in notes/assumptions/12.md. -/

namespace Sys2Proof.Machine

/-- What `wr` and `rd` name: a register, or a hexadecimal offset `@0xNN` (R87). -/
inductive Target where
  | reg (r : Reg)
  | at (off : Nat)
  deriving DecidableEq, Repr

/-- A statement: the two base statements (R87) and the pseudo-instructions (R88). Immediates are kept as
written, so that one out of range can be refused. -/
inductive Stmt where
  | wr (t : Target) (imm : Nat)
  | rd (t : Target)
  | nop
  | crcInit
  | crcByte (imm : Nat)
  | seqNext
  | encHb
  | encAtt
  | crcBytes (imms : List Nat)
  | crc16 (imms : List Nat)
  | encAttSet (t r p y : Nat)
  | frameRead
  deriving DecidableEq, Repr

/-- One line of a program (R87, R88). -/
inductive Line where
  | blank
  | stmt (x : Stmt)
  | rept (n : Nat)
  | endr
  deriving DecidableEq, Repr

/-- Why a program does not assemble. All are safe: no transaction results. -/
inductive AsmError where
  /-- "An out-of-range immediate is an assembly error" (R87); raised too for an offset beyond the window. -/
  | outOfRange
  /-- A line that is no statement of R87 or R88. -/
  | badLine
  /-- `.rept` and `.endr` do not pair up. -/
  | unmatchedRept
  deriving DecidableEq, Repr

/-- An immediate of `w` bits, or an assembly error (R87). -/
def immediate (w n : Nat) : Except AsmError (BitVec w) :=
  if n < 2 ^ w then .ok (BitVec.ofNat w n) else .error .outOfRange

/-- The offset a target names. -/
def Target.offset : Target → Except AsmError (BitVec 8)
  | .reg r => .ok r.offset
  | .at n => immediate 8 n

/-- `MemWrite(off, 4, v)` (00_scope.md R13). -/
def memWrite (off : BitVec 8) (v : Word) : Transaction := .write Config.portBytes off v

/-- `MemRead(off, 4)` (00_scope.md R13). -/
def memReadAt (off : BitVec 8) : Transaction := .read Config.portBytes off

/-- A command mnemonic expands to one write of its word to CMD (R88). -/
def command (i : Instr) : Transaction := memWrite Reg.cmd.offset (encode i)

/-- `crc.bytes b0, ..., bn` (R88). -/
def crcBytesProgram (bs : List Byte) : List Transaction := bs.map fun b => command (.crcByte b)

/-- `crc16 b0, ..., bn` (R88). -/
def crc16Program (bs : List Byte) : List Transaction :=
  command .crcInit :: (crcBytesProgram bs ++ [memReadAt Reg.crcResult.offset])

/-- `enc.att.set t, r, p, y`, the angles in wire order (R88). -/
def encAttSetProgram (t r p y : Word) : List Transaction :=
  [memWrite Reg.timeBootMs.offset t, memWrite Reg.roll.offset r, memWrite Reg.pitch.offset p,
    memWrite Reg.yaw.offset y, command .encAtt]

/-- `frame.read`: FRAME_LEN, then FRAME0 to FRAME8 (R88). -/
def frameReadProgram : List Transaction :=
  memReadAt Reg.frameLen.offset :: (List.finRange 9).map fun i => memReadAt (Reg.frame i).offset

/-- `.rept n` ... `.endr`: `n` copies, written out in order (R88). -/
def reptProgram (n : Nat) (ts : List Transaction) : List Transaction := (List.replicate n ts).flatten

/-- The transactions of one statement (R87, R88). -/
def Stmt.assemble : Stmt → Except AsmError (List Transaction)
  | .wr t imm => do
    let off ← t.offset
    let v ← immediate 32 imm
    return [memWrite off v]
  | .rd t => do
    let off ← t.offset
    return [memReadAt off]
  | .nop => .ok [command .nop]
  | .crcInit => .ok [command .crcInit]
  | .crcByte imm => do
    let b ← immediate 8 imm
    return [command (.crcByte b)]
  | .seqNext => .ok [command .seqNext]
  | .encHb => .ok [command .encHb]
  | .encAtt => .ok [command .encAtt]
  | .crcBytes imms => do
    let bs ← imms.mapM (immediate 8)
    return crcBytesProgram bs
  | .crc16 imms => do
    let bs ← imms.mapM (immediate 8)
    return crc16Program bs
  | .encAttSet t r p y => do
    let t ← immediate 32 t
    let r ← immediate 32 r
    let p ← immediate 32 p
    let y ← immediate 32 y
    return encAttSetProgram t r p y
  | .frameRead => .ok frameReadProgram

/-- A program's transactions. `stack` holds the count of each open `.rept` and what stood before it, and
`done` what the innermost open block holds so far. -/
def assembleLines : List Line → List (Nat × List Transaction) → List Transaction →
    Except AsmError (List Transaction)
  | [], [], done => .ok done
  | [], _ :: _, _ => .error .unmatchedRept
  | .blank :: ls, stack, done => assembleLines ls stack done
  | .stmt x :: ls, stack, done =>
    match x.assemble with
    | .ok ts => assembleLines ls stack (done ++ ts)
    | .error e => .error e
  | .rept n :: ls, stack, done => assembleLines ls ((n, done) :: stack) []
  | .endr :: ls, (n, before) :: stack, done => assembleLines ls stack (before ++ reptProgram n done)
  | .endr :: _, [], _ => .error .unmatchedRept

/-- The digits of a decimal literal, each at the index that is its value. -/
def decimalDigits : List Char := "0123456789".toList

/-- The digits of a hexadecimal literal: after the decimal ones the letters in capitals, then the same six
in small (notes/assumptions/12.md). -/
def hexadecimalDigits : List Char := decimalDigits ++ "ABCDEFabcdef".toList

/-- A decimal digit's value: its place among the digits. -/
def decimalValue (c : Char) : Option Nat := decimalDigits.idxOf? c

/-- A hexadecimal digit's value: its place among the digits, a small letter's six places earlier. -/
def hexadecimalValue (c : Char) : Option Nat :=
  (hexadecimalDigits.idxOf? c).map fun place => if place < 16 then place else place - 6

/-- The number that digits of a base write, the first digit the most significant. -/
def readDigits (base : Nat) (value : Char → Option Nat) (cs : List Char) : Option Nat :=
  cs.foldlM (fun n c => (value c).map (n * base + ·)) 0

/-- A literal, "hexadecimal `0x...` or decimal" (R87). -/
def readNumber : List Char → Option Nat
  | '0' :: 'x' :: c :: cs => readDigits 16 hexadecimalValue (c :: cs)
  | c :: cs => readDigits 10 decimalValue (c :: cs)
  | [] => none

/-- The register names of R34, as R87 spells them. -/
def registerNames : List (List Char × Reg) :=
  [("CMD".toList, .cmd), ("STATUS".toList, .status), ("CRC_STATE".toList, .crcState),
   ("CRC_RESULT".toList, .crcResult), ("SEQ".toList, .seq), ("ID".toList, .id),
   ("FRAME_LEN".toList, .frameLen), ("TIME_BOOT_MS".toList, .timeBootMs), ("ROLL".toList, .roll),
   ("PITCH".toList, .pitch), ("YAW".toList, .yaw),
   ("FRAME0".toList, .frame 0), ("FRAME1".toList, .frame 1), ("FRAME2".toList, .frame 2),
   ("FRAME3".toList, .frame 3), ("FRAME4".toList, .frame 4), ("FRAME5".toList, .frame 5),
   ("FRAME6".toList, .frame 6), ("FRAME7".toList, .frame 7), ("FRAME8".toList, .frame 8)]

/-- `<REG>`: a register name or `@0xNN` (R87). -/
def readTarget : List Char → Option Target
  | '@' :: '0' :: 'x' :: c :: cs => (readDigits 16 hexadecimalValue (c :: cs)).map .at
  | cs => (registerNames.lookup cs).map .reg

/-- A blank, a tab or a carriage return. -/
def isBlank (c : Char) : Bool := c == ' ' || c == '\t' || c == '\r'

/-- A text without the blanks around it. -/
def trimBlanks (cs : List Char) : List Char :=
  ((cs.dropWhile isBlank).reverse.dropWhile isBlank).reverse

/-- The operands after a mnemonic, separated by commas; none in an empty text. -/
def readOperands (cs : List Char) : List (List Char) :=
  if trimBlanks cs = [] then [] else (cs.splitOn ',').map trimBlanks

/-- A statement from its mnemonic and operands (R87, R88). -/
def readStmt (name : List Char) (ops : List (List Char)) : Option Line :=
  if name = "wr".toList then
    match ops with
    | [t, v] => (readTarget t).bind fun t => (readNumber v).map fun v => .stmt (.wr t v)
    | _ => none
  else if name = "rd".toList then
    match ops with
    | [t] => (readTarget t).map fun t => .stmt (.rd t)
    | _ => none
  else if name = ".rept".toList then
    match ops with
    | [n] => (readNumber n).map .rept
    | _ => none
  else if name = "crc.byte".toList then
    match ops with
    | [b] => (readNumber b).map fun b => .stmt (.crcByte b)
    | _ => none
  else if name = "crc.bytes".toList then
    if ops = [] then none else (ops.mapM readNumber).map fun bs => .stmt (.crcBytes bs)
  else if name = "crc16".toList then
    if ops = [] then none else (ops.mapM readNumber).map fun bs => .stmt (.crc16 bs)
  else if name = "enc.att.set".toList then
    match ops.mapM readNumber with
    | some [t, r, p, y] => some (.stmt (.encAttSet t r p y))
    | _ => none
  else if ops = [] then
    if name = "nop".toList then some (.stmt .nop)
    else if name = "crc.init".toList then some (.stmt .crcInit)
    else if name = "seq.next".toList then some (.stmt .seqNext)
    else if name = "enc.hb".toList then some (.stmt .encHb)
    else if name = "enc.att".toList then some (.stmt .encAtt)
    else if name = "frame.read".toList then some (.stmt .frameRead)
    else if name = ".endr".toList then some .endr
    else none
  else none

/-- One line: what stands before `;`, and in it at most one statement (R87). -/
def readLine (cs : List Char) : Except AsmError Line :=
  let code := trimBlanks (cs.takeWhile (· != ';'))
  if code = [] then .ok .blank
  else
    match readStmt (code.takeWhile (!isBlank ·)) (readOperands (code.dropWhile (!isBlank ·))) with
    | some l => .ok l
    | none => .error .badLine

/-- A program's text to the transactions the host issues (R87, R88). -/
def assemble (text : List Char) : Except AsmError (List Transaction) := do
  let ls ← (text.splitOn '\n').mapM readLine
  assembleLines ls [] []

/-- The events of a program: each of its transactions accepted, in order. -/
def programEvents (ts : List Transaction) : List PortEvent := ts.map .access

end Sys2Proof.Machine
end

