-- ==== Sys2Proof/Machine/Platform.lean ====
section
/-! DEFINITION. The platform's side of the port (20_memory.md R50, R52, R60): it decodes `BASE_ADDR`,
routes only the addresses inside the window, and the block's port receives what is routed, in order.
`base` is the OPEN parameter `BASE_ADDR` of 00_scope.md R10, an argument here. -/

namespace Sys2Proof.Machine

/-- An access that a master issues on the platform's bus, at an address of the system. -/
inductive BusAccess where
  | read (width addr : Nat)
  | write (width addr : Nat) (data : Word)
  deriving DecidableEq, Repr

/-- The offset at which an address reaches the block, if it lies in the 256-byte window (R52). -/
def route (base addr : Nat) : Option (BitVec 8) :=
  if base ≤ addr ∧ addr < base + Config.windowSize then some (BitVec.ofNat 8 (addr - base)) else none

/-- The transaction a bus access becomes at the port, if it is routed to the block. -/
def BusAccess.transaction? (base : Nat) : BusAccess → Option Transaction
  | .read n a => (route base a).map fun off => .read n off
  | .write n a v => (route base a).map fun off => .write n off v

/-- A routed access joins the events the port will accept, after those already there (R62); an access
outside the window never reaches the block (R52). -/
def State.issue (s : State) (base : Nat) (a : BusAccess) : State :=
  match a.transaction? base with
  | some t => { s with port := s.port ++ [.access t] }
  | none => s

end Sys2Proof.Machine
end

