-- ==== Sys2Proof/Safety.lean ====
section
/-! DEFINITION. What claims are stated in: the frame a buffer may hold, the invariant of the block, and
the words a run reads. -/

namespace Sys2Proof.Machine

/-- The layout of a frame with message id `mid`, sequence byte `q` and the given payload (42_frame.md R130,
R132): marker, length, sequence, ids, payload, and the checksum of all of it but the marker. -/
def frameBytes (cfg : Config) (mid q : Byte) (payload : List Byte) : List Byte :=
  let covered := [BitVec.ofNat 8 payload.length, q, cfg.systemId, cfg.componentId, mid] ++ payload
  [0xFE#8] ++ covered ++ le16 (crc16 covered)

/-- What FB and FRAME_LEN hold together (10_state.md R24, R25): nothing and all zeros; or a heartbeat, or an
attitude frame over some operand values, with some sequence byte, and zeros after it. -/
def FrameInv (s : State) : Prop :=
  (s.frameLen = 0 ∧ s.fb.toList = zeros 36) ∨
  (s.frameLen = 17 ∧ ∃ q, s.fb.toList =
    frameBytes s.config s.config.msgIdHeartbeat q (zeros 9) ++ zeros 19) ∨
  (s.frameLen = 36 ∧ ∃ q t r p y, s.fb.toList =
    frameBytes s.config s.config.msgIdAttitude q (le32 t ++ le32 r ++ le32 p ++ le32 y ++ zeros 12))

/-- An event that is no reset. -/
def PortEvent.isAccess : PortEvent → Bool
  | .access _ => true
  | .reset _ => false

/-- The events of a run that no reset interrupts, each of them a supported transaction. -/
def undisturbed (es : List PortEvent) : Bool := es.all fun e => e.isAccess && e.supported

/-- A command that calls `seq_next()`: ENC_HB, ENC_ATT or SEQ_NEXT (41_sequence.md R123). -/
def advancesSeq : Option Instr → Bool
  | some .encHb => true
  | some .encAtt => true
  | some .seqNext => true
  | _ => false

/-- The bytes that the CRC_BYTE commands among the events feed, in order (40_crc.md R105). -/
def crcBytesOf (es : List PortEvent) : List Byte :=
  es.filterMap fun e =>
    match e.command? with
    | some (.crcByte b) => some b
    | _ => none

/-- `k` steps, ending at the first refusal (the run of the host's interface, on this machine). -/
def runFor : Nat → State → Host.Outcome State Fault Refusal
  | 0, s => .next s
  | k + 1, s =>
    match step s with
    | .next t => runFor k t
    | .fault r => .fault r
    | .refused r => .refused r

/-- The data words that the next `k` steps return, in order. -/
def readsOf : Nat → State → List Word
  | 0, _ => []
  | k + 1, s =>
    match step s with
    | .next t => t.response.toList ++ readsOf k t
    | .fault _ => []
    | .refused _ => []

end Sys2Proof.Machine
end

