-- ==== Sys2Proof/Certificates/Slice0/Obligations.lean ====
section
/-! DEFINITION. The statements about the block, for the provers. Each says which rule of spec/ it
formalises. A statement of a command's result is an equation whose right side is the whole next state,
so it is the command's completion and its frame at once. The fields `port` and `response` are the model's
own (notes/assumptions/1.md and 3.md): a clause `port := rest` says which event the step took, and a clause
on `response` which data word 43_control.md R166 has the transaction return. -/

open Sys2Proof Sys2Proof.Machine

/-! ### Reset -/

/-- 70_reset_and_hazards.md section 1, the table of R250, and R10's defaults: the state after reset. -/
def Obligations.ResetStateHoldsTheTableValues : Prop :=
  State.reset.crcState = 0xFFFF#16 ∧ State.reset.seq = 0 ∧ State.reset.roll = 0 ∧ State.reset.pitch = 0 ∧
  State.reset.yaw = 0 ∧ (∀ k, k < 36 → State.reset.fb.byte k = 0) ∧ State.reset.fb.toList.length = 36 ∧
  State.reset.frameLen = 0 ∧ State.reset.timeBootMs = 0 ∧ State.reset.errIllegal = false ∧
  State.reset.config.systemId = 1 ∧ State.reset.config.componentId = 1 ∧
  State.reset.config.msgIdHeartbeat = 0 ∧ State.reset.config.msgIdAttitude = 30

/-- 70_reset_and_hazards.md section 1 and 60_exceptions.md section 2: a reset, from any state, gives every cell
its reset value at once, leaves the configuration alone, and a transaction that coincides with it is lost.
The clause `t.port = rest`, that the events behind the reset stay to come, is the model's choice
(notes/assumptions/8.md). -/
def Obligations.ResetEventRestoresEveryCell : Prop :=
  ∀ (s : State) (lost : Option Transaction) (rest : List PortEvent), s.port = .reset lost :: rest →
    ∃ t, step s = .next t ∧ t.crcState = 0xFFFF#16 ∧ t.seq = 0 ∧ t.roll = 0 ∧ t.pitch = 0 ∧ t.yaw = 0 ∧
      t.fb.toList = List.replicate 36 0#8 ∧ t.frameLen = 0 ∧ t.timeBootMs = 0 ∧ t.errIllegal = false ∧
      t.config = s.config ∧ t.port = rest

/-- R251: the values every register reads as after reset; CRC_RESULT's is `crc16([])`. A computation can start
without CRC_INIT, which would change nothing, and the first frame carries sequence 1. -/
def Obligations.ReadsAfterResetAreTabulated : Prop :=
  crc16 [] = 0#16 ∧
  exec .crcInit State.reset = .next State.reset ∧
  (∃ t, exec .encHb State.reset = .next t ∧ t.fb.byte 2 = 1#8) ∧
  (∃ t, exec .encAtt State.reset = .next t ∧ t.fb.byte 2 = 1#8) ∧
  ∀ (off : BitVec 8) (rest : List PortEvent), off.extractLsb' 0 2 = 0#2 →
    step { State.reset with port := .access (.read 4 off) :: rest } =
      .next { State.reset with
        port := rest
        response := some (if off = 0x08#8 then 0x0000FFFF#32 else if off = 0x14#8 then 0x1E000101#32 else 0) }

/-- The model's choice (notes/assumptions/2.md, from R208 and R252): with no event at the port, a step
changes nothing. -/
def Obligations.EmptyPortChangesNothing : Prop :=
  ∀ s : State, s.port = [] → step s = .next s

/-! ### A step and the decoder -/

/-- A step runs the decoded command: when the bytes of the word written to CMD decode to `i`, the step is
`exec i` on the state whose port has handed the event over. -/
def Obligations.StepRunsTheDeliveredCommand : Prop :=
  ∀ (s : State) (rest : List PortEvent) (w : Word) (i : Instr),
    s.port = .access (.write 4 0x00#8 w) :: rest → decode (le32 w) = .ok (i, []) →
      step s = exec i { s with port := rest, response := none }

/-- Words written out from the encodings of R81 and R83 decode to the commands they stand for (the words of
R84, R88 and 95_test_vectors.md). -/
def Obligations.WrittenOutWordsDecode : Prop :=
  decodeWord 0x00000000#32 = .nop ∧ decodeWord 0xFFFF0000#32 = .nop ∧
  decodeWord 0x00000001#32 = .crcInit ∧ decodeWord 0x00003102#32 = .crcByte 0x31#8 ∧
  decodeWord 0xFFFF3102#32 = .crcByte 0x31#8 ∧ decodeWord 0x00000003#32 = .seqNext ∧
  decodeWord 0x00000010#32 = .encHb ∧ decodeWord 0xABCD0010#32 = .encHb ∧
  decodeWord 0x00000011#32 = .encAtt ∧ decodeWord 0x000000FF#32 = .reserved 0xFF#8 ∧
  decodeWord 0x00000004#32 = .reserved 0x04#8

/-- R83: the opcode map. -/
def Obligations.OpcodeMapAsTabulated : Prop :=
  ∀ w : Word,
    (w.extractLsb' 0 8 = 0x00#8 → decodeWord w = .nop) ∧
    (w.extractLsb' 0 8 = 0x01#8 → decodeWord w = .crcInit) ∧
    (w.extractLsb' 0 8 = 0x02#8 → decodeWord w = .crcByte (w.extractLsb' 8 8)) ∧
    (w.extractLsb' 0 8 = 0x03#8 → decodeWord w = .seqNext) ∧
    (w.extractLsb' 0 8 = 0x10#8 → decodeWord w = .encHb) ∧
    (w.extractLsb' 0 8 = 0x11#8 → decodeWord w = .encAtt) ∧
    ((0x04#8 ≤ w.extractLsb' 0 8 ∧ w.extractLsb' 0 8 ≤ 0x0F#8) ∨ 0x12#8 ≤ w.extractLsb' 0 8 →
      decodeWord w = .reserved (w.extractLsb' 0 8))

/-- R84: OP alone selects the command, RSVD is ignored for every opcode, and DATA8 for every opcode but
CRC_BYTE's. -/
def Obligations.OnlyOpSelectsTheCommand : Prop :=
  (∀ w w' : Word, w.extractLsb' 0 8 = w'.extractLsb' 0 8 → w.extractLsb' 0 8 ≠ 0x02#8 →
    decodeWord w = decodeWord w') ∧
  (∀ w w' : Word, w.extractLsb' 0 16 = w'.extractLsb' 0 16 → decodeWord w = decodeWord w') ∧
  decodeWord 0xABCD0010#32 = .encHb ∧ decodeWord 0xFFFF3102#32 = .crcByte 0x31#8

/-- Every well-formed command is what its word decodes to, whatever stands in the ignored bits and
whatever bytes follow it. -/
def Obligations.DecodeOfEncodeIsTheCommand : Prop :=
  ∀ (i : Instr) (data8 : Byte) (rsvd : Half) (rest : List Byte), i.wf = true →
    decode (le32 (encodeWith data8 rsvd i) ++ rest) = .ok (i, rest)

/-- Every word decodes to a well-formed command, and no bit of the word is lost: the command and the
ignored fields give the word back. -/
def Obligations.EncodeOfDecodeIsTheWord : Prop :=
  ∀ w : Word, (decodeWord w).wf = true ∧ encodeWith (data8Field w) (rsvdField w) (decodeWord w) = w

/-! ### The commands -/

/-- R160: NOP changes no cell; in particular it does not clear ERR_ILLEGAL. -/
def Obligations.NopChangesNothing : Prop :=
  (∀ w : Word, w.extractLsb' 0 8 = 0x00#8 → decodeWord w = .nop) ∧
  ∀ s : State, exec .nop s = .next s

/-- R103: CRC_INIT sets CRC_STATE to 0xFFFF and changes nothing else; CRC_RESULT then reads 0 and STATUS
reads as before. -/
def Obligations.CrcInitStartsAComputation : Prop :=
  (∀ w : Word, w.extractLsb' 0 8 = 0x01#8 → decodeWord w = .crcInit) ∧
  ∀ s : State, ∃ t, exec .crcInit s = .next t ∧ t = { s with crcState := 0xFFFF#16 } ∧
    t.memRead 0x0C#8 = 0 ∧ t.memRead 0x04#8 = s.memRead 0x04#8

/-- R104: CRC_BYTE advances CRC_STATE by its data byte and changes nothing else. Its corner cases: zero stays
zero under a zero byte, and the example of the word 0x00003102 from reset, where no CRC_INIT came first. -/
def Obligations.CrcByteAdvancesTheEngine : Prop :=
  (∀ w : Word, w.extractLsb' 0 8 = 0x02#8 → decodeWord w = .crcByte (w.extractLsb' 8 8)) ∧
  (∀ (b : Byte) (s : State),
    exec (.crcByte b) s = .next { s with crcState := crcStep s.crcState b }) ∧
  crcStep 0x0000#16 0x00#8 = 0x0000#16 ∧
  (∃ t, exec (decodeWord 0x00003102#32) State.reset = .next t ∧ t.crcState = 0x2F8D#16 ∧
    t.memRead 0x0C#8 = 0x0000D072#32)

/-- R100: `crc_step` XORs the byte into the low half, then eight times shifts right, XORing 0x8408 in where
bit 0 was set before the shift. -/
def Obligations.CrcStepIsEightConditionalShifts : Prop :=
  ∀ (c : Half) (b : Byte), crcStep c b =
    Nat.iterate (fun r : Half => if r.getLsbD 0 then (r >>> 1) ^^^ 0x8408#16 else r >>> 1) 8
      (c ^^^ BitVec.setWidth 16 b)

/-- R101 and R102: `crc16` starts from 0xFFFF, takes the bytes first to last, and complements; of the empty
list it is 0. -/
def Obligations.Crc16ComplementsTheFold : Prop :=
  (∀ bs : List Byte, crc16 bs = bs.foldl crcStep 0xFFFF#16 ^^^ 0xFFFF#16) ∧ crc16 [] = 0x0000#16

/-- 95_test_vectors.md D-CRC-1, D-CRC-3, D-CRC-4: values of the checksum function. -/
def Obligations.Crc16TestVectors : Prop :=
  crc16 [0x31#8, 0x32#8, 0x33#8, 0x34#8, 0x35#8, 0x36#8, 0x37#8, 0x38#8, 0x39#8] = 0x906E#16 ∧
  crc16 [0xFF#8] = 0xFF00#16 ∧ crc16 [0xFE#8] = 0xEE89#16 ∧ crcStep 0x8408#16 0x00#8 = 0x8CCC#16 ∧
  crc16 [0x09#8, 0x05#8, 0x01#8, 0x01#8, 0#8, 0#8, 0#8, 0#8, 0#8, 0#8, 0#8, 0#8, 0#8, 0#8] = 0xFB3E#16

/-- R121 (and R120): SEQ_NEXT advances SEQ by one modulo 256, 0xFF going to 0x00, and changes nothing else. -/
def Obligations.SeqNextAdvancesTheCounter : Prop :=
  (∀ w : Word, w.extractLsb' 0 8 = 0x03#8 → decodeWord w = .seqNext) ∧
  ∀ s : State, ∃ t, exec .seqNext s = .next t ∧ t = { s with seq := t.seq } ∧
    t.seq.toNat = (s.seq.toNat + 1) % 256

/-- R136: ENC_HB advances SEQ, leaves the 17 bytes of the heartbeat with that SEQ in FB with zeros after
them, and sets FRAME_LEN to 17; FRAME_VALID then reads 1. It changes nothing else. -/
def Obligations.EncHbEncodesAHeartbeat : Prop :=
  (∀ w : Word, w.extractLsb' 0 8 = 0x10#8 → decodeWord w = .encHb) ∧
  ∀ s : State, ∃ t, exec .encHb s = .next t ∧
    t = { s with seq := s.seq + 1, fb := t.fb, frameLen := 17 } ∧
    (t.memRead 0x04#8).getLsbD 0 = true ∧
    (let covered := [9#8, s.seq + 1, s.config.systemId, s.config.componentId, s.config.msgIdHeartbeat,
       0#8, 0#8, 0#8, 0#8, 0#8, 0#8, 0#8, 0#8, 0#8]
     t.fb.toList = [0xFE#8] ++ covered ++
       [(crc16 covered).extractLsb' 0 8, (crc16 covered).extractLsb' 8 8] ++ List.replicate 19 0#8)

/-- R137: ENC_ATT advances SEQ, leaves the 36 bytes of the attitude frame over the operand cells as they
stand in FB, in the order time, roll, pitch, yaw, each least significant byte first, and sets FRAME_LEN to
36; FRAME_VALID then reads 1. It changes nothing else. -/
def Obligations.EncAttEncodesAnAttitudeFrame : Prop :=
  (∀ w : Word, w.extractLsb' 0 8 = 0x11#8 → decodeWord w = .encAtt) ∧
  ∀ s : State, ∃ t, exec .encAtt s = .next t ∧
    t = { s with seq := s.seq + 1, fb := t.fb, frameLen := 36 } ∧
    (t.memRead 0x04#8).getLsbD 0 = true ∧
    (let bytesOf := fun v : Word => [v.extractLsb' 0 8, v.extractLsb' 8 8, v.extractLsb' 16 8, v.extractLsb' 24 8]
     let covered := [28#8, s.seq + 1, s.config.systemId, s.config.componentId, s.config.msgIdAttitude] ++
       bytesOf s.timeBootMs ++ bytesOf s.roll ++ bytesOf s.pitch ++ bytesOf s.yaw ++ List.replicate 12 0#8
     t.fb.toList = [0xFE#8] ++ covered ++
       [(crc16 covered).extractLsb' 0 8, (crc16 covered).extractLsb' 8 8])

/-- R161: a reserved opcode sets ERR_ILLEGAL to 1 and changes nothing else; once it is 1 it stays. -/
def Obligations.ReservedOpcodeSetsErrIllegal : Prop :=
  (∀ w : Word, ((0x04#8 ≤ w.extractLsb' 0 8 ∧ w.extractLsb' 0 8 ≤ 0x0F#8) ∨ 0x12#8 ≤ w.extractLsb' 0 8) →
    decodeWord w = .reserved (w.extractLsb' 0 8)) ∧
  ∀ (op : Byte) (s : State), ((0x04#8 ≤ op ∧ op ≤ 0x0F#8) ∨ 0x12#8 ≤ op) →
    exec (.reserved op) s = .next { s with errIllegal := true }

/-! ### The encoding procedure -/

/-- R131 and R132, with the layout of R130: the procedure of R135, write by write, leaves exactly the frame
of any payload that fits in the buffer, and zeros after it. A frame of N payload bytes is 6 + N + 2 bytes
long, its byte 1 is N, and its last two bytes are the little-endian checksum of its bytes 1 to 5+N. -/
def Obligations.EncodeFrameLaysTheFrameOut : Prop :=
  ∀ (s : State) (mid : Byte) (payload : List Byte), payload.length ≤ 28 →
    (s.encodeFrame mid payload) = { s with
      seq := s.seq + 1
      fb := (s.encodeFrame mid payload).fb
      frameLen := BitVec.ofNat 8 (6 + payload.length + 2) } ∧
    (frameBytes s.config mid (s.seq + 1) payload).length = 6 + payload.length + 2 ∧
    (s.encodeFrame mid payload).fb.toList =
      frameBytes s.config mid (s.seq + 1) payload ++ List.replicate (28 - payload.length) 0#8 ∧
    (s.encodeFrame mid payload).fb.byte 1 = BitVec.ofNat 8 payload.length ∧
    [(s.encodeFrame mid payload).fb.byte (6 + payload.length),
      (s.encodeFrame mid payload).fb.byte (7 + payload.length)] =
      le16 (crc16 ((s.encodeFrame mid payload).fb.slice 1 (5 + payload.length)))

/-! ### Register reads and writes -/

/-- R165: a supported read returns the register's view and changes no cell; the views of every offset. -/
def Obligations.ReadsReturnTheRegisterMap : Prop :=
  (∀ (s : State) (off : BitVec 8) (rest : List PortEvent), off.extractLsb' 0 2 = 0#2 →
    s.port = .access (.read 4 off) :: rest →
      step s = .next { s with port := rest, response := some (s.memRead off) }) ∧
  ∀ s : State,
    s.memRead 0x00#8 = 0 ∧
    s.memRead 0x04#8 = (if s.errIllegal then 2#32 else 0#32) + (if s.frameLen ≠ 0 then 1#32 else 0#32) ∧
    s.memRead 0x08#8 = BitVec.setWidth 32 s.crcState ∧
    s.memRead 0x0C#8 = BitVec.setWidth 32 (s.crcState ^^^ 0xFFFF#16) ∧
    s.memRead 0x10#8 = BitVec.setWidth 32 s.seq ∧
    s.memRead 0x14#8 = s.config.msgIdAttitude ++ s.config.msgIdHeartbeat ++ s.config.componentId ++ s.config.systemId ∧
    s.memRead 0x18#8 = BitVec.setWidth 32 s.frameLen ∧
    s.memRead 0x20#8 = s.timeBootMs ∧ s.memRead 0x24#8 = s.roll ∧ s.memRead 0x28#8 = s.pitch ∧
    s.memRead 0x2C#8 = s.yaw ∧
    (∀ i : Nat, i < 9 → s.memRead (BitVec.ofNat 8 (0x40 + 4 * i)) =
      s.fb.byte (4 * i + 3) ++ s.fb.byte (4 * i + 2) ++ s.fb.byte (4 * i + 1) ++ s.fb.byte (4 * i)) ∧
    (∀ off : BitVec 8, off.extractLsb' 0 2 = 0#2 → (off = 0x1C#8 ∨ (0x30#8 ≤ off ∧ off ≤ 0x3C#8) ∨ 0x64#8 ≤ off) →
      s.memRead off = 0)

/-- R162: a write to STATUS clears ERR_ILLEGAL where bit 1 of the value is 1; the other bits are ignored and
nothing else changes. -/
def Obligations.StatusWriteClearsErrIllegal : Prop :=
  ∀ (s : State) (v : Word) (rest : List PortEvent), s.port = .access (.write 4 0x04#8 v) :: rest →
    step s = .next { s with
      errIllegal := if v.getLsbD 1 then false else s.errIllegal
      port := rest
      response := none }

/-- R163: a write to an operand register stores all 32 bits in its cell, and changes nothing else. -/
def Obligations.OperandWritesStoreTheWord : Prop :=
  ∀ (s : State) (v : Word) (rest : List PortEvent),
    (s.port = .access (.write 4 0x20#8 v) :: rest →
      step s = .next { s with timeBootMs := v, port := rest, response := none }) ∧
    (s.port = .access (.write 4 0x24#8 v) :: rest →
      step s = .next { s with roll := v, port := rest, response := none }) ∧
    (s.port = .access (.write 4 0x28#8 v) :: rest →
      step s = .next { s with pitch := v, port := rest, response := none }) ∧
    (s.port = .access (.write 4 0x2C#8 v) :: rest →
      step s = .next { s with yaw := v, port := rest, response := none })

/-- R164: a write to a read-only or reserved offset changes no cell and sets no flag. -/
def Obligations.WritesToOtherOffsetsAreIgnored : Prop :=
  ∀ (s : State) (off : BitVec 8) (v : Word) (rest : List PortEvent), off.extractLsb' 0 2 = 0#2 →
    (off = 0x08#8 ∨ off = 0x0C#8 ∨ off = 0x10#8 ∨ off = 0x14#8 ∨ off = 0x18#8 ∨ off = 0x1C#8 ∨
      (0x30#8 ≤ off ∧ off ≤ 0x3C#8) ∨ 0x40#8 ≤ off) →
    s.port = .access (.write 4 off v) :: rest →
      step s = .next { s with port := rest, response := none }

/-- 20_memory.md section 2: an access of another width than 32 bits, or at an unaligned offset, is refused. -/
def Obligations.OtherAccessesAreRefused : Prop :=
  ∀ (s : State) (n : Nat) (off : BitVec 8) (v : Word) (rest : List PortEvent),
    (n ≠ 4 ∨ off.extractLsb' 0 2 ≠ 0#2) →
    (s.port = .access (.read n off) :: rest → step s = .refused (.unsupportedAccess n off)) ∧
    (s.port = .access (.write n off v) :: rest → step s = .refused (.unsupportedAccess n off))

/-- Every word-aligned 32-bit transaction (43_control.md section 4) and every reset (70_reset_and_hazards.md
section 1) completes in its one step, consuming itself and nothing else. For a reset the clause
`t.port = rest` is the model's choice: that the events behind it stay to come is notes/assumptions/8.md. -/
def Obligations.EverySupportedEventCompletes : Prop :=
  ∀ (s : State) (e : PortEvent) (rest : List PortEvent), s.port = e :: rest →
    (∀ n off, e = .access (.read n off) → n = 4 ∧ off.extractLsb' 0 2 = 0#2) →
    (∀ n off v, e = .access (.write n off v) → n = 4 ∧ off.extractLsb' 0 2 = 0#2) →
    ∃ t, step s = .next t ∧ t.port = rest

/-- 20_memory.md section 4: a write to STATUS or to an operand register, done twice, leaves the cells that
one write leaves. -/
def Obligations.StatusAndOperandWritesAreIdempotent : Prop :=
  ∀ (s : State) (off : BitVec 8) (v : Word),
    (off = 0x04#8 ∨ off = 0x20#8 ∨ off = 0x24#8 ∨ off = 0x28#8 ∨ off = 0x2C#8) →
    ∃ t, runFor 1 { s with port := [.access (.write 4 off v)] } = .next t ∧
      runFor 2 { s with port := [.access (.write 4 off v), .access (.write 4 off v)] } = .next t

/-! ### Which events change which cell -/

/-- R21's rule over every step: CRC_STATE changes only by CRC_INIT, CRC_BYTE and reset, and to these values. -/
def Obligations.CrcStateChangesOnlyByItsCommands : Prop :=
  ∀ s t : State, step s = .next t → t.crcState =
    match s.port with
    | [] => s.crcState
    | .reset _ :: _ => 0xFFFF#16
    | e :: _ =>
      match e.command? with
      | some .crcInit => 0xFFFF#16
      | some (.crcByte b) => crcStep s.crcState b
      | _ => s.crcState

/-- R22's and R123's rule over every step: SEQ advances by exactly one at ENC_HB, ENC_ATT and SEQ_NEXT, is 0
after reset, and nothing else changes it. -/
def Obligations.SeqChangesOnlyByItsCommands : Prop :=
  ∀ s t : State, step s = .next t → t.seq =
    match s.port with
    | [] => s.seq
    | .reset _ :: _ => 0
    | e :: _ =>
      match e.command? with
      | some .encHb => s.seq + 1
      | some .encAtt => s.seq + 1
      | some .seqNext => s.seq + 1
      | _ => s.seq

/-- R24's rule over every step: only ENC_HB, ENC_ATT and reset change a byte of FB, or FRAME_LEN. -/
def Obligations.FrameBufferChangesOnlyByEncoding : Prop :=
  ∀ s t : State, step s = .next t →
    (∀ e rest, s.port = e :: rest → e.isAccess = true ∧ e.command? ≠ some .encHb ∧ e.command? ≠ some .encAtt) →
    (∀ k, t.fb.byte k = s.fb.byte k) ∧ t.fb = s.fb ∧ t.frameLen = s.frameLen

/-- R27's rule over every step: a reserved opcode sets ERR_ILLEGAL, a 1 written to STATUS bit 1 and reset
clear it, and nothing else changes it. -/
def Obligations.ErrIllegalChangesOnlyByItsCauses : Prop :=
  ∀ s t : State, step s = .next t → t.errIllegal =
    match s.port with
    | [] => s.errIllegal
    | .reset _ :: _ => false
    | .access (.read _ _) :: _ => s.errIllegal
    | .access (.write _ off v) :: _ =>
      if off = 0x04#8 then s.errIllegal && !v.getLsbD 1
      else if off = 0x00#8 then
        (match decodeWord v with
          | .reserved _ => true
          | _ => s.errIllegal)
      else s.errIllegal

/-- R23's and R26's rule over every step: an operand cell changes only by a write to its own register, or by
reset; no command changes one. -/
def Obligations.OperandCellsChangeOnlyByTheirWrites : Prop :=
  ∀ s t : State, step s = .next t →
    match s.port with
    | [] => t.timeBootMs = s.timeBootMs ∧ t.roll = s.roll ∧ t.pitch = s.pitch ∧ t.yaw = s.yaw
    | .reset _ :: _ => t.timeBootMs = 0 ∧ t.roll = 0 ∧ t.pitch = 0 ∧ t.yaw = 0
    | .access (.read _ _) :: _ =>
      t.timeBootMs = s.timeBootMs ∧ t.roll = s.roll ∧ t.pitch = s.pitch ∧ t.yaw = s.yaw
    | .access (.write _ off v) :: _ =>
      t.timeBootMs = (if off = 0x20#8 then v else s.timeBootMs) ∧
      t.roll = (if off = 0x24#8 then v else s.roll) ∧
      t.pitch = (if off = 0x28#8 then v else s.pitch) ∧
      t.yaw = (if off = 0x2C#8 then v else s.yaw)

/-- R29: no step, not even a reset, changes a configuration parameter, and the ID register goes on showing
the four of them. -/
def Obligations.ConfigurationNeverChanges : Prop :=
  ∀ s t : State, step s = .next t → t.config = s.config ∧ t.memRead 0x14#8 =
    s.config.msgIdAttitude ++ s.config.msgIdHeartbeat ++ s.config.componentId ++ s.config.systemId

/-- R28: FRAME_VALID is the bit `FRAME_LEN != 0`; an encode command sets it, it is 0 after a reset, and nothing
else changes it. -/
def Obligations.FrameValidStaysUntilReset : Prop :=
  (∀ s : State, s.frameValid = (s.frameLen != 0)) ∧
  ∀ s t : State, step s = .next t → t.frameValid =
    match s.port with
    | [] => s.frameValid
    | .reset _ :: _ => false
    | e :: _ =>
      match e.command? with
      | some .encHb => true
      | some .encAtt => true
      | _ => s.frameValid

/-! ### The invariant -/

/-- At reset FB and FRAME_LEN hold what the invariant says. -/
def Obligations.FrameInvariantAtReset : Prop := FrameInv State.reset

/-- R24 and R25, with the layout of R130 and R132: whatever step is taken, FB holds either nothing, or a whole
frame with its right checksum, of one of the two kinds, with zeros after it, and FRAME_LEN its length. -/
def Obligations.EveryStepKeepsTheFrameInvariant : Prop :=
  ∀ s t : State, FrameInv s → step s = .next t → FrameInv t

/-! ### Runs -/

/-- A port that holds only resets and supported transactions is emptied, one event a step: for transactions
20_memory.md section 4, for a reset 70_reset_and_hazards.md section 1. That the events behind a reset remain, to be
taken one a step after it, is the model's choice (notes/assumptions/8.md). -/
def Obligations.SupportedPortIsDrained : Prop :=
  ∀ s : State, s.port.all PortEvent.supported = true →
    ∃ t, runFor s.port.length s = .next t ∧ t.port = []

/-- What the block does with the events it has accepted does not depend on the events that are still to come
(20_memory.md section 6, which speaks of transactions). Where `p` holds a reset, that the events `q` stay at the
port behind it is the model's choice (notes/assumptions/8.md). -/
def Obligations.LaterEventsDoNotReachBack : Prop :=
  ∀ (s t : State) (p q : List PortEvent),
    runFor p.length { s with port := p } = .next t →
      runFor p.length { s with port := p ++ q } = .next { t with port := q }

/-- 10_state.md section 1: the data word last returned is no state of the block. A step on an event is the
same whatever that word was. -/
def Obligations.LastResponseIsNoState : Prop :=
  ∀ (s : State) (e : PortEvent) (rest : List PortEvent) (r : Option Word), s.port = e :: rest →
    step { s with response := r } = step s

/-- R122: after any run of transactions, SEQ has advanced by the number of `seq_next()` calls in it, modulo
256; from reset it is that number. -/
def Obligations.CounterCountsItsCalls : Prop :=
  (∀ (s : State) (es : List PortEvent), undisturbed es = true → s.port = es →
    ∃ t, runFor es.length s = .next t ∧
      t.seq = s.seq + BitVec.ofNat 8 (es.countP fun e => advancesSeq e.command?)) ∧
  (∀ es : List PortEvent, undisturbed es = true →
    ∃ t, runFor es.length { State.reset with port := es } = .next t ∧
      t.seq.toNat = (es.countP fun e => advancesSeq e.command?) % 256)

/-- R105: after CRC_INIT, or a reset, the bytes fed by CRC_BYTE commands, with any other transactions in
between but CRC_INIT, leave their fold in CRC_STATE and their checksum in CRC_RESULT. -/
def Obligations.StreamedBytesGiveTheirChecksum : Prop :=
  ∀ (s : State) (first : PortEvent) (es : List PortEvent),
    ((first.command? = some .crcInit) ∨ ∃ lost, first = .reset lost) →
    undisturbed es = true → (∀ e ∈ es, e.command? ≠ some .crcInit) → s.port = first :: es →
      ∃ t, runFor (es.length + 1) s = .next t ∧
        t.crcState = (crcBytesOf es).foldl crcStep 0xFFFF#16 ∧
        t.memRead 0x0C#8 = BitVec.setWidth 32 (crc16 (crcBytesOf es))

/-- R106: the checksum of any bytes, fed after them low byte first, leaves 0xF0B8; so feeding back a frame of
the buffer from offset 1 to its end leaves 0xF0B8 in CRC_STATE and 0x0F47 in CRC_RESULT, whatever the frame,
and leaves the frame, SEQ and the operands as they were. -/
def Obligations.CheckingAFrameLeavesTheResidue : Prop :=
  (∀ bs : List Byte, crcFold 0xFFFF#16 (bs ++ le16 (crc16 bs)) = 0xF0B8#16) ∧
  (∀ (s : State) (es : List PortEvent), FrameInv s → s.frameLen ≠ 0 →
    es = programEvents (command .crcInit :: crcBytesProgram (s.fb.slice 1 (s.frameLen.toNat - 1))) →
    s.port = es →
      ∃ t, runFor es.length s = .next t ∧
        t = { s with crcState := 0xF0B8#16, port := [], response := none } ∧
        t.memRead 0x0C#8 = 0x00000F47#32)

/-- 30_encoding.md section 5: the `crc16` program of R88, from any state, returns the checksum of its bytes,
and changes no cell but CRC_STATE. -/
def Obligations.Crc16ProgramReturnsTheChecksum : Prop :=
  ∀ (s : State) (bs : List Byte), s.port = programEvents (crc16Program bs) →
    runFor (bs.length + 2) s = .next { s with
      crcState := ~~~ crc16 bs
      port := []
      response := some (BitVec.setWidth 32 (crc16 bs)) }

/-- 30_encoding.md section 5: the `enc.att.set` program of R88, from any state, leaves the attitude frame of
its four operands in FB, and keeps them in their cells. -/
def Obligations.EncAttSetProgramEncodesItsOperands : Prop :=
  ∀ (s : State) (t r p y : Word), s.port = programEvents (encAttSetProgram t r p y) →
    ∃ u, runFor 5 s = .next u ∧
      u = { s with timeBootMs := t, roll := r, pitch := p, yaw := y, seq := s.seq + 1, fb := u.fb,
                   frameLen := 36, port := [], response := none } ∧
      u.fb.toList = frameBytes s.config s.config.msgIdAttitude (s.seq + 1)
        (le32 t ++ le32 r ++ le32 p ++ le32 y ++ List.replicate 12 0#8)

/-- 42_frame.md section 3 (R138) and the byte lanes of R46 and R56: the `frame.read` program returns FRAME_LEN,
then nine words whose bytes, least significant first, are the buffer's 36 bytes in order, and it changes no
cell. -/
def Obligations.FrameReadProgramReturnsTheBuffer : Prop :=
  ∀ s : State, s.port = programEvents frameReadProgram →
    (∃ ws : List Word, readsOf 10 s = BitVec.setWidth 32 s.frameLen :: ws ∧ ws.length = 9 ∧
      ws.flatMap (fun v => [v.extractLsb' 0 8, v.extractLsb' 8 8, v.extractLsb' 16 8, v.extractLsb' 24 8]) =
        s.fb.toList) ∧
    ∃ t, runFor 10 s = .next t ∧ t.toCells = s.toCells ∧ t.config = s.config ∧ t.port = []

/-! ### The checksum function -/

/-- Two designs of the engine agree (from R100): the bit-serial step is the byte-wide step that looks the low
byte up in the table of the steps from 0. -/
def Obligations.BitSerialCrcIsTableDrivenCrc : Prop :=
  ∀ (c : Half) (b : Byte), crcStep c b = (c >>> 8) ^^^ crcStep 0#16 (BitVec.setWidth 8 c ^^^ b)

/-- A single changed byte always changes the checksum (from R100 and R101). -/
def Obligations.ChangedByteChangesTheChecksum : Prop :=
  ∀ (xs ys : List Byte) (b b' : Byte), b ≠ b' → crc16 (xs ++ b :: ys) ≠ crc16 (xs ++ b' :: ys)

/-! ### The host's side -/

/-- 30_encoding.md section 5: the command words of the mnemonics of R88, and the refusal of an immediate that
is out of range (R87). -/
def Obligations.MnemonicsAssembleToTheirWords : Prop :=
  Stmt.nop.assemble = .ok [.write 4 0x00#8 0x00000000#32] ∧
  Stmt.crcInit.assemble = .ok [.write 4 0x00#8 0x00000001#32] ∧
  (∀ n, n < 256 → (Stmt.crcByte n).assemble = .ok [.write 4 0x00#8 (BitVec.ofNat 32 (n * 256 + 2))]) ∧
  (∀ n, 256 ≤ n → (Stmt.crcByte n).assemble = .error .outOfRange) ∧
  Stmt.seqNext.assemble = .ok [.write 4 0x00#8 0x00000003#32] ∧
  Stmt.encHb.assemble = .ok [.write 4 0x00#8 0x00000010#32] ∧
  Stmt.encAtt.assemble = .ok [.write 4 0x00#8 0x00000011#32]

/-- 20_memory.md sections 1 and 5: an address reaches the block at an offset exactly where it is that far above
`BASE_ADDR`, for every base; an access outside the window leaves the block's port and state as they are. That
addresses are unbounded natural numbers, so that the window never wraps, is the model's choice
(notes/assumptions/10.md, DESIGN CHOICE). -/
def Obligations.OnlyTheWindowIsRouted : Prop :=
  (∀ (base addr : Nat) (off : BitVec 8), route base addr = some off ↔ addr = base + off.toNat) ∧
  (∀ (s : State) (base n addr : Nat) (v : Word), (addr < base ∨ base + 256 ≤ addr) →
    s.issue base (.read n addr) = s ∧ s.issue base (.write n addr v) = s)
end

