-- ==== Sys2Proof/Laws/State.lean ====
section
/-! SUPPORT. The small lemmas of every named update of the state: one for each field, true by `rfl`, so
that no later proof unfolds a record update. -/

namespace Sys2Proof.Machine

section setCrc
variable (s : State) (c : Half)

@[simp] theorem State.setCrc_crcState : (s.setCrc c).crcState = c := rfl
@[simp] theorem State.setCrc_seq : (s.setCrc c).seq = s.seq := rfl
@[simp] theorem State.setCrc_roll : (s.setCrc c).roll = s.roll := rfl
@[simp] theorem State.setCrc_pitch : (s.setCrc c).pitch = s.pitch := rfl
@[simp] theorem State.setCrc_yaw : (s.setCrc c).yaw = s.yaw := rfl
@[simp] theorem State.setCrc_fb : (s.setCrc c).fb = s.fb := rfl
@[simp] theorem State.setCrc_frameLen : (s.setCrc c).frameLen = s.frameLen := rfl
@[simp] theorem State.setCrc_timeBootMs : (s.setCrc c).timeBootMs = s.timeBootMs := rfl
@[simp] theorem State.setCrc_errIllegal : (s.setCrc c).errIllegal = s.errIllegal := rfl
@[simp] theorem State.setCrc_config : (s.setCrc c).config = s.config := rfl
@[simp] theorem State.setCrc_port : (s.setCrc c).port = s.port := rfl
@[simp] theorem State.setCrc_response : (s.setCrc c).response = s.response := rfl

end setCrc

section setSeq
variable (s : State) (v : Byte)

@[simp] theorem State.setSeq_crcState : (s.setSeq v).crcState = s.crcState := rfl
@[simp] theorem State.setSeq_seq : (s.setSeq v).seq = v := rfl
@[simp] theorem State.setSeq_roll : (s.setSeq v).roll = s.roll := rfl
@[simp] theorem State.setSeq_pitch : (s.setSeq v).pitch = s.pitch := rfl
@[simp] theorem State.setSeq_yaw : (s.setSeq v).yaw = s.yaw := rfl
@[simp] theorem State.setSeq_fb : (s.setSeq v).fb = s.fb := rfl
@[simp] theorem State.setSeq_frameLen : (s.setSeq v).frameLen = s.frameLen := rfl
@[simp] theorem State.setSeq_timeBootMs : (s.setSeq v).timeBootMs = s.timeBootMs := rfl
@[simp] theorem State.setSeq_errIllegal : (s.setSeq v).errIllegal = s.errIllegal := rfl
@[simp] theorem State.setSeq_config : (s.setSeq v).config = s.config := rfl
@[simp] theorem State.setSeq_port : (s.setSeq v).port = s.port := rfl
@[simp] theorem State.setSeq_response : (s.setSeq v).response = s.response := rfl

end setSeq

section setFrame
variable (s : State) (fb : FrameBuf) (n : Byte)

@[simp] theorem State.setFrame_crcState : (s.setFrame fb n).crcState = s.crcState := rfl
@[simp] theorem State.setFrame_seq : (s.setFrame fb n).seq = s.seq := rfl
@[simp] theorem State.setFrame_roll : (s.setFrame fb n).roll = s.roll := rfl
@[simp] theorem State.setFrame_pitch : (s.setFrame fb n).pitch = s.pitch := rfl
@[simp] theorem State.setFrame_yaw : (s.setFrame fb n).yaw = s.yaw := rfl
@[simp] theorem State.setFrame_fb : (s.setFrame fb n).fb = fb := rfl
@[simp] theorem State.setFrame_frameLen : (s.setFrame fb n).frameLen = n := rfl
@[simp] theorem State.setFrame_timeBootMs : (s.setFrame fb n).timeBootMs = s.timeBootMs := rfl
@[simp] theorem State.setFrame_errIllegal : (s.setFrame fb n).errIllegal = s.errIllegal := rfl
@[simp] theorem State.setFrame_config : (s.setFrame fb n).config = s.config := rfl
@[simp] theorem State.setFrame_port : (s.setFrame fb n).port = s.port := rfl
@[simp] theorem State.setFrame_response : (s.setFrame fb n).response = s.response := rfl

end setFrame

section setTimeBootMs
variable (s : State) (v : Word)

@[simp] theorem State.setTimeBootMs_crcState : (s.setTimeBootMs v).crcState = s.crcState := rfl
@[simp] theorem State.setTimeBootMs_seq : (s.setTimeBootMs v).seq = s.seq := rfl
@[simp] theorem State.setTimeBootMs_roll : (s.setTimeBootMs v).roll = s.roll := rfl
@[simp] theorem State.setTimeBootMs_pitch : (s.setTimeBootMs v).pitch = s.pitch := rfl
@[simp] theorem State.setTimeBootMs_yaw : (s.setTimeBootMs v).yaw = s.yaw := rfl
@[simp] theorem State.setTimeBootMs_fb : (s.setTimeBootMs v).fb = s.fb := rfl
@[simp] theorem State.setTimeBootMs_frameLen : (s.setTimeBootMs v).frameLen = s.frameLen := rfl
@[simp] theorem State.setTimeBootMs_timeBootMs : (s.setTimeBootMs v).timeBootMs = v := rfl
@[simp] theorem State.setTimeBootMs_errIllegal : (s.setTimeBootMs v).errIllegal = s.errIllegal := rfl
@[simp] theorem State.setTimeBootMs_config : (s.setTimeBootMs v).config = s.config := rfl
@[simp] theorem State.setTimeBootMs_port : (s.setTimeBootMs v).port = s.port := rfl
@[simp] theorem State.setTimeBootMs_response : (s.setTimeBootMs v).response = s.response := rfl

end setTimeBootMs

section setRoll
variable (s : State) (v : Word)

@[simp] theorem State.setRoll_crcState : (s.setRoll v).crcState = s.crcState := rfl
@[simp] theorem State.setRoll_seq : (s.setRoll v).seq = s.seq := rfl
@[simp] theorem State.setRoll_roll : (s.setRoll v).roll = v := rfl
@[simp] theorem State.setRoll_pitch : (s.setRoll v).pitch = s.pitch := rfl
@[simp] theorem State.setRoll_yaw : (s.setRoll v).yaw = s.yaw := rfl
@[simp] theorem State.setRoll_fb : (s.setRoll v).fb = s.fb := rfl
@[simp] theorem State.setRoll_frameLen : (s.setRoll v).frameLen = s.frameLen := rfl
@[simp] theorem State.setRoll_timeBootMs : (s.setRoll v).timeBootMs = s.timeBootMs := rfl
@[simp] theorem State.setRoll_errIllegal : (s.setRoll v).errIllegal = s.errIllegal := rfl
@[simp] theorem State.setRoll_config : (s.setRoll v).config = s.config := rfl
@[simp] theorem State.setRoll_port : (s.setRoll v).port = s.port := rfl
@[simp] theorem State.setRoll_response : (s.setRoll v).response = s.response := rfl

end setRoll

section setPitch
variable (s : State) (v : Word)

@[simp] theorem State.setPitch_crcState : (s.setPitch v).crcState = s.crcState := rfl
@[simp] theorem State.setPitch_seq : (s.setPitch v).seq = s.seq := rfl
@[simp] theorem State.setPitch_roll : (s.setPitch v).roll = s.roll := rfl
@[simp] theorem State.setPitch_pitch : (s.setPitch v).pitch = v := rfl
@[simp] theorem State.setPitch_yaw : (s.setPitch v).yaw = s.yaw := rfl
@[simp] theorem State.setPitch_fb : (s.setPitch v).fb = s.fb := rfl
@[simp] theorem State.setPitch_frameLen : (s.setPitch v).frameLen = s.frameLen := rfl
@[simp] theorem State.setPitch_timeBootMs : (s.setPitch v).timeBootMs = s.timeBootMs := rfl
@[simp] theorem State.setPitch_errIllegal : (s.setPitch v).errIllegal = s.errIllegal := rfl
@[simp] theorem State.setPitch_config : (s.setPitch v).config = s.config := rfl
@[simp] theorem State.setPitch_port : (s.setPitch v).port = s.port := rfl
@[simp] theorem State.setPitch_response : (s.setPitch v).response = s.response := rfl

end setPitch

section setYaw
variable (s : State) (v : Word)

@[simp] theorem State.setYaw_crcState : (s.setYaw v).crcState = s.crcState := rfl
@[simp] theorem State.setYaw_seq : (s.setYaw v).seq = s.seq := rfl
@[simp] theorem State.setYaw_roll : (s.setYaw v).roll = s.roll := rfl
@[simp] theorem State.setYaw_pitch : (s.setYaw v).pitch = s.pitch := rfl
@[simp] theorem State.setYaw_yaw : (s.setYaw v).yaw = v := rfl
@[simp] theorem State.setYaw_fb : (s.setYaw v).fb = s.fb := rfl
@[simp] theorem State.setYaw_frameLen : (s.setYaw v).frameLen = s.frameLen := rfl
@[simp] theorem State.setYaw_timeBootMs : (s.setYaw v).timeBootMs = s.timeBootMs := rfl
@[simp] theorem State.setYaw_errIllegal : (s.setYaw v).errIllegal = s.errIllegal := rfl
@[simp] theorem State.setYaw_config : (s.setYaw v).config = s.config := rfl
@[simp] theorem State.setYaw_port : (s.setYaw v).port = s.port := rfl
@[simp] theorem State.setYaw_response : (s.setYaw v).response = s.response := rfl

end setYaw

section setErr
variable (s : State) (b : Bool)

@[simp] theorem State.setErr_crcState : (s.setErr b).crcState = s.crcState := rfl
@[simp] theorem State.setErr_seq : (s.setErr b).seq = s.seq := rfl
@[simp] theorem State.setErr_roll : (s.setErr b).roll = s.roll := rfl
@[simp] theorem State.setErr_pitch : (s.setErr b).pitch = s.pitch := rfl
@[simp] theorem State.setErr_yaw : (s.setErr b).yaw = s.yaw := rfl
@[simp] theorem State.setErr_fb : (s.setErr b).fb = s.fb := rfl
@[simp] theorem State.setErr_frameLen : (s.setErr b).frameLen = s.frameLen := rfl
@[simp] theorem State.setErr_timeBootMs : (s.setErr b).timeBootMs = s.timeBootMs := rfl
@[simp] theorem State.setErr_errIllegal : (s.setErr b).errIllegal = b := rfl
@[simp] theorem State.setErr_config : (s.setErr b).config = s.config := rfl
@[simp] theorem State.setErr_port : (s.setErr b).port = s.port := rfl
@[simp] theorem State.setErr_response : (s.setErr b).response = s.response := rfl

end setErr

section accept
variable (s : State) (es : List PortEvent)

@[simp] theorem State.accept_crcState : (s.accept es).crcState = s.crcState := rfl
@[simp] theorem State.accept_seq : (s.accept es).seq = s.seq := rfl
@[simp] theorem State.accept_roll : (s.accept es).roll = s.roll := rfl
@[simp] theorem State.accept_pitch : (s.accept es).pitch = s.pitch := rfl
@[simp] theorem State.accept_yaw : (s.accept es).yaw = s.yaw := rfl
@[simp] theorem State.accept_fb : (s.accept es).fb = s.fb := rfl
@[simp] theorem State.accept_frameLen : (s.accept es).frameLen = s.frameLen := rfl
@[simp] theorem State.accept_timeBootMs : (s.accept es).timeBootMs = s.timeBootMs := rfl
@[simp] theorem State.accept_errIllegal : (s.accept es).errIllegal = s.errIllegal := rfl
@[simp] theorem State.accept_config : (s.accept es).config = s.config := rfl
@[simp] theorem State.accept_port : (s.accept es).port = es := rfl
@[simp] theorem State.accept_response : (s.accept es).response = none := rfl

end accept

section respond
variable (s : State) (v : Word)

@[simp] theorem State.respond_crcState : (s.respond v).crcState = s.crcState := rfl
@[simp] theorem State.respond_seq : (s.respond v).seq = s.seq := rfl
@[simp] theorem State.respond_roll : (s.respond v).roll = s.roll := rfl
@[simp] theorem State.respond_pitch : (s.respond v).pitch = s.pitch := rfl
@[simp] theorem State.respond_yaw : (s.respond v).yaw = s.yaw := rfl
@[simp] theorem State.respond_fb : (s.respond v).fb = s.fb := rfl
@[simp] theorem State.respond_frameLen : (s.respond v).frameLen = s.frameLen := rfl
@[simp] theorem State.respond_timeBootMs : (s.respond v).timeBootMs = s.timeBootMs := rfl
@[simp] theorem State.respond_errIllegal : (s.respond v).errIllegal = s.errIllegal := rfl
@[simp] theorem State.respond_config : (s.respond v).config = s.config := rfl
@[simp] theorem State.respond_port : (s.respond v).port = s.port := rfl
@[simp] theorem State.respond_response : (s.respond v).response = some v := rfl

end respond

section resetCells
variable (s : State)

@[simp] theorem State.resetCells_crcState : s.resetCells.crcState = Cells.reset.crcState := rfl
@[simp] theorem State.resetCells_seq : s.resetCells.seq = Cells.reset.seq := rfl
@[simp] theorem State.resetCells_roll : s.resetCells.roll = Cells.reset.roll := rfl
@[simp] theorem State.resetCells_pitch : s.resetCells.pitch = Cells.reset.pitch := rfl
@[simp] theorem State.resetCells_yaw : s.resetCells.yaw = Cells.reset.yaw := rfl
@[simp] theorem State.resetCells_fb : s.resetCells.fb = Cells.reset.fb := rfl
@[simp] theorem State.resetCells_frameLen : s.resetCells.frameLen = Cells.reset.frameLen := rfl
@[simp] theorem State.resetCells_timeBootMs : s.resetCells.timeBootMs = Cells.reset.timeBootMs := rfl
@[simp] theorem State.resetCells_errIllegal : s.resetCells.errIllegal = Cells.reset.errIllegal := rfl
@[simp] theorem State.resetCells_config : s.resetCells.config = s.config := rfl
@[simp] theorem State.resetCells_port : s.resetCells.port = s.port := rfl
@[simp] theorem State.resetCells_response : s.resetCells.response = none := rfl

end resetCells

section advanceSeq
variable (s : State)

@[simp] theorem State.advanceSeq_crcState : s.advanceSeq.crcState = s.crcState := rfl
@[simp] theorem State.advanceSeq_seq : s.advanceSeq.seq = s.seq + 1 := rfl
@[simp] theorem State.advanceSeq_roll : s.advanceSeq.roll = s.roll := rfl
@[simp] theorem State.advanceSeq_pitch : s.advanceSeq.pitch = s.pitch := rfl
@[simp] theorem State.advanceSeq_yaw : s.advanceSeq.yaw = s.yaw := rfl
@[simp] theorem State.advanceSeq_fb : s.advanceSeq.fb = s.fb := rfl
@[simp] theorem State.advanceSeq_frameLen : s.advanceSeq.frameLen = s.frameLen := rfl
@[simp] theorem State.advanceSeq_timeBootMs : s.advanceSeq.timeBootMs = s.timeBootMs := rfl
@[simp] theorem State.advanceSeq_errIllegal : s.advanceSeq.errIllegal = s.errIllegal := rfl
@[simp] theorem State.advanceSeq_config : s.advanceSeq.config = s.config := rfl
@[simp] theorem State.advanceSeq_port : s.advanceSeq.port = s.port := rfl
@[simp] theorem State.advanceSeq_response : s.advanceSeq.response = s.response := rfl

end advanceSeq

section encodeFrame
variable (s : State) (mid : Byte) (payload : List Byte)

@[simp] theorem State.encodeFrame_crcState : (s.encodeFrame mid payload).crcState = s.crcState := rfl
@[simp] theorem State.encodeFrame_seq : (s.encodeFrame mid payload).seq = s.seq + 1 := rfl
@[simp] theorem State.encodeFrame_roll : (s.encodeFrame mid payload).roll = s.roll := rfl
@[simp] theorem State.encodeFrame_pitch : (s.encodeFrame mid payload).pitch = s.pitch := rfl
@[simp] theorem State.encodeFrame_yaw : (s.encodeFrame mid payload).yaw = s.yaw := rfl
@[simp] theorem State.encodeFrame_frameLen : (s.encodeFrame mid payload).frameLen = BitVec.ofNat 8 (6 + payload.length + 2) := rfl
@[simp] theorem State.encodeFrame_timeBootMs : (s.encodeFrame mid payload).timeBootMs = s.timeBootMs := rfl
@[simp] theorem State.encodeFrame_errIllegal : (s.encodeFrame mid payload).errIllegal = s.errIllegal := rfl
@[simp] theorem State.encodeFrame_config : (s.encodeFrame mid payload).config = s.config := rfl
@[simp] theorem State.encodeFrame_port : (s.encodeFrame mid payload).port = s.port := rfl
@[simp] theorem State.encodeFrame_response : (s.encodeFrame mid payload).response = s.response := rfl

end encodeFrame

end Sys2Proof.Machine
end

