-- ==== Sys2Proof/Laws/Ops.lean ====
section
/-! SUPPORT. What the shared operations over the frame buffer, the byte order, the CRC engine and the
register map do, each said once. -/

namespace Sys2Proof.Machine

/-! ### Byte order -/

@[simp] theorem zeros_length (n : Nat) : (zeros n).length = n := List.length_replicate

@[simp] theorem le16_length (v : Half) : (le16 v).length = 2 := rfl

@[simp] theorem le32_length (v : Word) : (le32 v).length = 4 := rfl

theorem lane_packLanes (b0 b1 b2 b3 : Byte) :
    lane (packLanes b0 b1 b2 b3) 0 = b0 ∧ lane (packLanes b0 b1 b2 b3) 1 = b1 ∧
      lane (packLanes b0 b1 b2 b3) 2 = b2 ∧ lane (packLanes b0 b1 b2 b3) 3 = b3 := by
  refine ⟨?_, ?_, ?_, ?_⟩ <;>
  · apply BitVec.eq_of_getLsbD_eq
    intro i hi
    simp only [lane, packLanes, BitVec.getLsbD_extractLsb', BitVec.getLsbD_append, hi, decide_true,
      Bool.true_and]
    split_ifs <;> first | omega | (congr 1; omega)

@[simp] theorem le32_packLanes (b0 b1 b2 b3 : Byte) :
    le32 (packLanes b0 b1 b2 b3) = [b0, b1, b2, b3] := by
  obtain ⟨h0, h1, h2, h3⟩ := lane_packLanes b0 b1 b2 b3
  simp [le32, h0, h1, h2, h3]

@[simp] theorem packLanes_lane (v : Word) : packLanes (lane v 0) (lane v 1) (lane v 2) (lane v 3) = v := by
  apply BitVec.eq_of_getLsbD_eq
  intro i hi
  simp only [packLanes, lane, BitVec.getLsbD_append, BitVec.getLsbD_extractLsb']
  split_ifs <;> (rw [decide_eq_true (by omega), Bool.true_and]; congr 1; omega)

/-! ### The frame buffer -/

@[simp] theorem FrameBuf.toList_length (fb : FrameBuf) : fb.toList.length = 36 := by
  simp [Vector.length_toList]

@[simp] theorem FrameBuf.toList_cleared : FrameBuf.cleared.toList = zeros 36 := by decide

@[simp] theorem FrameBuf.toList_put (fb : FrameBuf) (k : Nat) (b : Byte) :
    (fb.put k b).toList = fb.toList.set k b := by
  simp [FrameBuf.put, Vector.toList]

/-- `putList` replaces the bytes from index `k` on, if they fit. -/
theorem FrameBuf.toList_putList (bs : List Byte) : ∀ (fb : FrameBuf) (k : Nat), k + bs.length ≤ 36 →
    (fb.putList k bs).toList = fb.toList.take k ++ bs ++ fb.toList.drop (k + bs.length) := by
  induction bs with
  | nil => intro fb k _; simp [FrameBuf.putList]
  | cons b bs ih =>
    intro fb k h
    simp only [List.length_cons] at h
    have hk : k < fb.toList.length := by rw [FrameBuf.toList_length]; omega
    rw [FrameBuf.putList, ih _ _ (by omega), FrameBuf.toList_put, List.set_eq_take_append_cons_drop]
    simp only [hk, if_true, List.length_cons]
    have e1 : (fb.toList.take k).length = k := by rw [List.length_take]; omega
    rw [List.take_append, List.drop_append, e1]
    simp only [Nat.add_sub_cancel_left, List.take_succ_cons, List.take_zero]
    rw [List.take_of_length_le (by omega), List.drop_of_length_le (by omega)]
    have e2 : k + 1 + bs.length - k = bs.length + 1 := by omega
    rw [e2]
    simp only [List.drop_succ_cons, List.drop_drop, List.append_assoc, List.cons_append,
      List.nil_append]
    congr 4
    omega

/-- Two buffers with the same bytes are the same buffer. -/
theorem FrameBuf.ext_toList {a b : FrameBuf} (h : a.toList = b.toList) : a = b :=
  Vector.toList_inj.mp h

/-! ### The CRC engine -/

@[simp] theorem crcFold_nil (c : Half) : crcFold c [] = c := rfl

@[simp] theorem crcFold_cons (c : Half) (b : Byte) (bs : List Byte) :
    crcFold c (b :: bs) = crcFold (crcStep c b) bs := rfl

@[simp] theorem crcFold_append (c : Half) (xs ys : List Byte) :
    crcFold c (xs ++ ys) = crcFold (crcFold c xs) ys := List.foldl_append

/-! ### The registers -/

/-- A write to a register changes no cell but the four operand cells and ERR_ILLEGAL (R162 to R164). -/
theorem State.writeReg_frame (s : State) (v : Word) (r : Reg) :
    (s.writeReg v r).crcState = s.crcState ∧ (s.writeReg v r).seq = s.seq ∧
      (s.writeReg v r).fb = s.fb ∧ (s.writeReg v r).frameLen = s.frameLen ∧
      (s.writeReg v r).config = s.config ∧ (s.writeReg v r).port = s.port ∧
      (s.writeReg v r).response = s.response := by
  cases r <;> simp only [State.writeReg, State.writeStatus] <;> (try split) <;> simp

end Sys2Proof.Machine
end

