-- ==== Sys2Proof/Laws/Crc.lean ====
section
/-! SUPPORT. The shift of the CRC engine is linear over XOR (from 40_crc.md R100), and what the encoding
procedure leaves in the buffer (42_frame.md R135), each said once. -/

namespace Sys2Proof.Machine

theorem crcShift_xor (a b : Half) : crcShift (a ^^^ b) = crcShift a ^^^ crcShift b := by
  unfold crcShift
  rw [BitVec.getLsbD_xor, BitVec.ushiftRight_xor_distrib]
  generalize a >>> 1 = x
  generalize b >>> 1 = y
  generalize Config.crcPoly = p
  cases a.getLsbD 0 <;> cases b.getLsbD 0 <;> simp
  all_goals
    apply BitVec.eq_of_getLsbD_eq
    intro i _
    simp only [BitVec.getLsbD_xor]
    cases x.getLsbD i <;> cases y.getLsbD i <;> cases p.getLsbD i <;> rfl

theorem crcShifts_xor (n : Nat) : ∀ a b : Half,
    crcShifts n (a ^^^ b) = crcShifts n a ^^^ crcShifts n b := by
  induction n with
  | zero => intro a b; rfl
  | succ n ih => intro a b; simp only [crcShifts, crcShift_xor, ih]

/-- The header, the placeholder and the payload, and zeros after them. -/
theorem toList_headerAndPayload (cfg : Config) (mid : Byte) (payload : List Byte)
    (h : payload.length ≤ 28) :
    (headerAndPayload cfg mid payload).toList =
      [0xFE#8, BitVec.ofNat 8 payload.length, 0, cfg.systemId, cfg.componentId, mid] ++ payload ++
        zeros (30 - payload.length) := by
  have hz : zeros 36 = 0 :: 0 :: 0 :: 0 :: 0 :: 0 :: zeros 30 := rfl
  have hd : (zeros 30).drop payload.length = zeros (30 - payload.length) := List.drop_replicate
  rw [headerAndPayload, FrameBuf.toList_putList _ _ _ (by simp only [Config.headerLen]; omega)]
  simp only [FrameBuf.toList_put, FrameBuf.toList_cleared, hz, List.set_cons_zero,
    List.set_cons_succ, Config.headerLen]
  rw [← List.drop_drop]
  simp only [List.drop_succ_cons, List.drop_zero, List.take_succ_cons, List.take_zero, hd]

end Sys2Proof.Machine
end

