-- ==== Sys2Proof/Laws/PerInstr.lean ====
section
/-! SUPPORT. The statements made for each instruction as syntax, one lemma per constructor. -/

namespace Sys2Proof.Laws

/-- The three fields of a command word built from OP, DATA8 and RSVD (30_encoding.md R81). -/
theorem commandWord_fields (rsvd : Half) (data8 op : Byte) :
    opField (commandWord rsvd data8 op) = op ∧ data8Field (commandWord rsvd data8 op) = data8 ∧
      rsvdField (commandWord rsvd data8 op) = rsvd := by
  refine ⟨?_, ?_, ?_⟩ <;>
  · apply BitVec.eq_of_getLsbD_eq
    intro i hi
    simp only [opField, data8Field, rsvdField, commandWord, BitVec.getLsbD_extractLsb',
      BitVec.getLsbD_append, hi, decide_true, Bool.true_and]
    split_ifs <;> first | omega | (congr 1; omega)

/-- Every word is the word of its three fields. -/
theorem commandWord_of_fields (w : Word) : commandWord (rsvdField w) (data8Field w) (opField w) = w := by
  apply BitVec.eq_of_getLsbD_eq
  intro i hi
  simp only [commandWord, rsvdField, data8Field, opField, BitVec.getLsbD_append,
    BitVec.getLsbD_extractLsb']
  split_ifs <;> (rw [decide_eq_true (by omega), Bool.true_and]; congr 1; omega)

/-- R83: an opcode is reserved exactly where it is none of the six others. -/
theorem isReservedOp_iff (op : Byte) : isReservedOp op = true ↔
    ¬ (op = 0x00#8 ∨ op = 0x01#8 ∨ op = 0x02#8 ∨ op = 0x03#8 ∨ op = 0x10#8 ∨ op = 0x11#8) := by
  revert op
  decide

/-- R83: a reserved opcode decodes to itself. -/
theorem decodeFields_reserved {op : Byte} (h : isReservedOp op = true) (data8 : Byte) :
    decodeFields op data8 = .reserved op := by
  obtain ⟨h0, h1, h2, h3, h4, h5⟩ := by simpa only [not_or] using (isReservedOp_iff op).mp h
  simp only [decodeFields, h0, h1, h2, h3, h4, h5, if_false]

/-- The DATA8 field of an instruction's word, where `data8` stands in the ignored field. -/
def data8Of (data8 : Byte) : Instr → Byte
  | .crcByte b => b
  | _ => data8

/-- The word of an instruction holds its opcode in OP, its operand (or the ignored bits) in DATA8, and
the ignored bits in RSVD (R81, R82, R84). -/
def EncodeFields.Statement (i : Instr) : Prop :=
  ∀ (data8 : Byte) (rsvd : Half), opField (encodeWith data8 rsvd i) = i.opcode ∧
    data8Field (encodeWith data8 rsvd i) = data8Of data8 i ∧ rsvdField (encodeWith data8 rsvd i) = rsvd

theorem EncodeFields.nop : EncodeFields.Statement .nop := fun _ _ => commandWord_fields _ _ _

theorem EncodeFields.crcInit : EncodeFields.Statement .crcInit := fun _ _ => commandWord_fields _ _ _

theorem EncodeFields.crcByte (b : Byte) : EncodeFields.Statement (.crcByte b) :=
  fun _ _ => commandWord_fields _ _ _

theorem EncodeFields.seqNext : EncodeFields.Statement .seqNext := fun _ _ => commandWord_fields _ _ _

theorem EncodeFields.encHb : EncodeFields.Statement .encHb := fun _ _ => commandWord_fields _ _ _

theorem EncodeFields.encAtt : EncodeFields.Statement .encAtt := fun _ _ => commandWord_fields _ _ _

theorem EncodeFields.reserved (op : Byte) : EncodeFields.Statement (.reserved op) :=
  fun _ _ => commandWord_fields _ _ _

end Sys2Proof.Laws
end

