-- ==== Sys2Proof/Laws/Step.lean ====
section
/-! SUPPORT. What a step can do, said once: the cases of an event, of a step, and of a run. -/

namespace Sys2Proof.Machine

/-! ### One event -/

@[simp] theorem takeEvent_reset (lost : Option Transaction) (s : State) :
    takeEvent (.reset lost) s = .next s.resetCells := rfl

theorem takeEvent_unsupported {t : Transaction} (h : t.supported = false) (s : State) :
    takeEvent (.access t) s = .refused (.unsupportedAccess t.width t.off) := by
  simp [takeEvent, perform, h]

theorem takeEvent_read {n : Nat} {off : BitVec 8} (h : (Transaction.read n off).supported = true)
    (s : State) : takeEvent (.access (.read n off)) s = .next (s.respond (s.memRead off)) := by
  simp [takeEvent, perform, h, performSupported]

theorem takeEvent_command {n : Nat} {off : BitVec 8} {v : Word}
    (h : (Transaction.write n off v).supported = true) (hc : Reg.ofOffset off = .cmd) (s : State) :
    takeEvent (.access (.write n off v)) s = exec (decodeWord v) s := by
  simp [takeEvent, perform, h, performSupported, hc]

theorem takeEvent_writeReg {n : Nat} {off : BitVec 8} {v : Word}
    (h : (Transaction.write n off v).supported = true) (hc : Reg.ofOffset off ≠ .cmd) (s : State) :
    takeEvent (.access (.write n off v)) s = .next (s.writeReg v (Reg.ofOffset off)) := by
  simp only [takeEvent, perform, h, performSupported, if_true]

/-- Everything an event can do when it answers a next state: reset, a read, a command, a write to another
register. -/
theorem takeEvent_cases {e : PortEvent} {s t : State} (h : takeEvent e s = .next t) :
    (∃ lost, e = .reset lost ∧ t = s.resetCells) ∨
    (∃ n off, e = .access (.read n off) ∧ e.supported = true ∧ e.command? = none ∧
      t = s.respond (s.memRead off)) ∨
    (∃ i, e.isAccess = true ∧ e.supported = true ∧ e.command? = some i ∧ exec i s = .next t) ∨
    (∃ n off v, e = .access (.write n off v) ∧ e.supported = true ∧ Reg.ofOffset off ≠ .cmd ∧
      e.command? = none ∧ t = s.writeReg v (Reg.ofOffset off)) := by
  match e with
  | .reset lost => exact .inl ⟨lost, rfl, by simpa using h.symm⟩
  | .access tr =>
    by_cases hs : tr.supported = true
    · match tr, hs with
      | .read n off, hs =>
        rw [takeEvent_read hs] at h
        exact .inr (.inl ⟨n, off, rfl, hs, rfl, by simpa using h.symm⟩)
      | .write n off v, hs =>
        by_cases hc : Reg.ofOffset off = .cmd
        · rw [takeEvent_command hs hc] at h
          exact .inr (.inr (.inl ⟨decodeWord v, rfl, hs, by simp [PortEvent.command?, hs, hc], h⟩))
        · rw [takeEvent_writeReg hs hc] at h
          exact .inr (.inr (.inr ⟨n, off, v, rfl, hs, hc, by simp [PortEvent.command?, hc],
            by simpa using h.symm⟩))
    · rw [takeEvent_unsupported (by simpa using hs)] at h
      cases h

/-! ### One command -/

/-- What a command does to each cell, and that it completes. -/
theorem exec_next (i : Instr) (s : State) : ∃ t, exec i s = .next t ∧
    t.crcState = (match i with
      | .crcInit => 0xFFFF#16
      | .crcByte b => crcStep s.crcState b
      | _ => s.crcState) ∧
    t.seq = (if advancesSeq (some i) then s.seq + 1 else s.seq) ∧
    (i ≠ .encHb → i ≠ .encAtt → t.fb = s.fb ∧ t.frameLen = s.frameLen) ∧
    t.errIllegal = (match i with
      | .reserved _ => true
      | _ => s.errIllegal) ∧
    t.timeBootMs = s.timeBootMs ∧ t.roll = s.roll ∧ t.pitch = s.pitch ∧ t.yaw = s.yaw ∧
    t.config = s.config ∧ t.port = s.port ∧ t.response = s.response := by
  cases i <;> exact ⟨_, rfl, by simp [advancesSeq, State.raiseIllegal]⟩

/-! ### One step -/

theorem step_nil {s : State} (h : s.port = []) : step s = .next s := by
  simp [step, h]

theorem step_cons {s : State} {e : PortEvent} {rest : List PortEvent} (h : s.port = e :: rest) :
    step s = takeEvent e (s.accept rest) := by
  simp [step, h]

/-- `withFetchWord` puts exactly its write to CMD at the head of the port, so the next step runs it. -/
theorem step_withFetchWord (s : State) (nbits w : Nat) :
    step (s.withFetchWord nbits w) =
      exec (decodeWord (BitVec.ofNat 32 (w % 2 ^ nbits))) (s.accept s.port) := by
  rw [step_cons (s := s.withFetchWord nbits w) rfl, cmdWrite, takeEvent_command rfl rfl]
  rfl

/-- A supported event answers a next state, and consumes exactly itself. -/
theorem takeEvent_next {e : PortEvent} (h : e.supported = true) (s : State) :
    ∃ t, takeEvent e s = .next t ∧ t.port = s.port ∧ t.config = s.config := by
  match e, h with
  | .reset lost, _ => exact ⟨_, rfl, rfl, rfl⟩
  | .access (.read n off), h => exact ⟨_, takeEvent_read h s, rfl, rfl⟩
  | .access (.write n off v), h =>
    by_cases hc : Reg.ofOffset off = .cmd
    · obtain ⟨t, ht, -, -, -, -, -, -, -, -, hcfg, hp, -⟩ := exec_next (decodeWord v) s
      exact ⟨t, (takeEvent_command h hc s).trans ht, hp, hcfg⟩
    · obtain ⟨-, -, -, -, hcfg, hp, -⟩ := s.writeReg_frame v (Reg.ofOffset off)
      exact ⟨_, takeEvent_writeReg h hc s, hp, hcfg⟩

/-! ### A run -/

@[simp] theorem runFor_zero (s : State) : runFor 0 s = .next s := rfl

theorem runFor_succ {s t : State} (h : step s = .next t) (k : Nat) : runFor (k + 1) s = runFor k t := by
  simp [runFor, h]

/-- The run that claims speak of is the run of the host's interface. -/
theorem core_run_eq_runFor : ∀ (k : Nat) (s : State), Sys2Proof.core.run k s = runFor k s
  | 0, _ => rfl
  | k + 1, s => by
    refine (Host.Core.run.eq_def Sys2Proof.core (k + 1) s).trans ?_
    have h : Sys2Proof.core.step s = step s := rfl
    cases hs : step s with
    | next t => simpa only [h, hs, runFor] using core_run_eq_runFor k t
    | fault r => simp only [h, hs, runFor]; rfl
    | refused r => simp only [h, hs, runFor]; rfl

end Sys2Proof.Machine
end

