-- ==== Sys2Proof/Tests/Slice0.lean ====
section
/-! SUPPORT. The model's own tests. Expected results come from spec/: the encodings of 30_encoding.md R81 and
R83, the examples of the command rules, and the vectors of 95_test_vectors.md. After them, for each
statement with hypotheses, a witness that its hypotheses can be met. -/

namespace Sys2Proof.Tests

open Sys2Proof.Machine

/-! ### Well-formedness: what the check refuses and what it lets through (R83) -/

theorem test_wf_refuses_assigned_opcodes :
    [0x00#8, 0x01#8, 0x02#8, 0x03#8, 0x10#8, 0x11#8].all (fun op => !(Instr.reserved op).wf) = true := by
  decide

theorem test_wf_accepts_reserved_bounds :
    [0x04#8, 0x0F#8, 0x12#8, 0xFF#8].all (fun op => (Instr.reserved op).wf) = true := by decide

/-! ### Decoding: words written out bit by bit as RSVD, DATA8, OP (R81, R83) -/

theorem test_decode_nop : decodeWord 0b1111111111111111_00000000_00000000#32 = .nop := by decide

theorem test_decode_crcInit : decodeWord 0b0000000000000000_00000000_00000001#32 = .crcInit := by decide

theorem test_decode_crcByte : decodeWord 0b1111111111111111_00110001_00000010#32 = .crcByte 0x31#8 := by
  decide

theorem test_decode_seqNext : decodeWord 0b0000000000000000_11111111_00000011#32 = .seqNext := by decide

theorem test_decode_encHb : decodeWord 0b1010101111001101_00000000_00010000#32 = .encHb := by decide

theorem test_decode_encAtt : decodeWord 0b0000000000000000_00000000_00010001#32 = .encAtt := by decide

theorem test_decode_reserved : decodeWord 0b0000000000000000_00000000_00010010#32 = .reserved 0x12#8 := by
  decide

/-- The lowest byte of a word is the first (R56). -/
theorem test_decode_bytes : decode [0x02#8, 0x31#8, 0xFF#8, 0xFF#8, 0x77#8] = .ok (.crcByte 0x31#8, [0x77#8]) := by
  decide

theorem test_decode_truncated : decode [0x02#8, 0x31#8, 0x00#8] = .error .truncated := by decide

theorem test_decodeTableWord : decodeTableWord 32 0xFFFF3102 = some (.crcByte 0x31#8) := by decide

/-- R88: `crc.byte` is `(imm8 << 8) | 0x02`. -/
theorem test_encode_crcByte : encode (.crcByte 0xA5#8) = 0x0000A502#32 := by decide

/-! ### One step -/

/-- What a cell holds after one step. -/
def after {α : Type} (o : Host.Outcome State Fault Refusal) (f : State → α) : Option α :=
  match o with
  | .next t => some (f t)
  | .fault _ => none
  | .refused _ => none

/-- The step that runs the command word `w` on the state `s`. -/
def running (s : State) (w : Nat) : Host.Outcome State Fault Refusal := step (s.withFetchWord 32 w)

/-- A state with both flags set and a running computation. -/
def busy : State := { State.reset with crcState := 0x6F91#16, errIllegal := true, frameLen := 17, seq := 0xFF#8 }

/-- R160: NOP does not clear ERR_ILLEGAL. -/
theorem test_nop_keeps_the_cells : after (running busy 0xFFFF0000) (·.toCells) = some busy.toCells := by decide

/-- R103's example. -/
theorem test_crcInit : after (running busy 1) (fun t => (t.crcState, t.memRead 0x0C#8)) =
    some (0xFFFF#16, 0x00000000#32) := by decide

/-- R104's example. -/
theorem test_crcByte : after (running State.reset 0x3102) (fun t => (t.crcState, t.memRead 0x0C#8)) =
    some (0x2F8D#16, 0x0000D072#32) := by decide

/-- D-CRC-4: feedback on the first iteration. -/
theorem test_crcStep_bit0_first : crcStep 0x0001#16 0x00#8 = 0x1189#16 := by decide

/-- 95_test_vectors.md, sequence counter: the wrap. -/
theorem test_seqNext_wraps : after (running busy 3) (·.seq) = some 0x00#8 := by decide

theorem test_seqNext_from_reset : after (running State.reset 3) (·.memRead 0x10#8) = some 0x00000001#32 := by
  decide

/-- D-FR-1, SEQ before 0x00. -/
theorem test_encHb_bytes : after (running State.reset 0x10) (fun t => (t.fb.toList.take 17, t.frameLen, t.seq)) =
    some ([0xFE#8, 0x09#8, 0x01#8, 0x01#8, 0x01#8, 0#8, 0#8, 0#8, 0#8, 0#8, 0#8, 0#8, 0#8, 0#8, 0#8, 0x8A#8, 0xED#8],
      17#8, 1#8) := by decide +kernel

/-- D-FR-2: other build parameters. -/
theorem test_encHb_other_ids :
    after (running { State.reset with config := ⟨0xFF#8, 0xBE#8, 0#8, 30#8⟩ } 0x10)
      (fun t => ((t.fb.toList.drop 15).take 2, t.memRead 0x14#8)) =
    some ([0xFB#8, 0x3A#8], 0x1E00BEFF#32) := by decide +kernel

/-- The operands of D-FR-3, the row SEQ 0x02. -/
def attState : State :=
  { State.reset with seq := 2, timeBootMs := 0x12345678#32, roll := 0x3F800000#32, pitch := 0xBF800000#32,
                     yaw := 0x40490FDB#32 }

/-- D-FR-3: FRAME0, FRAME1, FRAME4 and FRAME8. -/
theorem test_encAtt_words : after (running attState 0x11)
    (fun t => (t.memRead 0x40#8, t.memRead 0x44#8, t.memRead 0x50#8, t.memRead 0x60#8)) =
    some (0x01031CFE#32, 0x56781E01#32, 0x0FDBBF80#32, 0x1AFA0000#32) := by decide +kernel

/-- R137: the operands are kept, and CRC_STATE is not used. -/
theorem test_encAtt_keeps_operands : after (running attState 0x11) (fun t => (t.timeBootMs, t.yaw, t.crcState)) =
    some (0x12345678#32, 0x40490FDB#32, 0xFFFF#16) := by decide

/-- R161's example. -/
theorem test_reserved : after (running State.reset 0xFF) (·.memRead 0x04#8) = some 0x00000002#32 := by decide

/-- 95_test_vectors.md: a reserved opcode after a frame. -/
theorem test_reserved_keeps_frame_valid :
    after (running { State.reset with frameLen := 17 } 4) (·.memRead 0x04#8) = some 0x00000003#32 := by decide

/-- One transaction on a state. -/
def performing (s : State) (t : Transaction) : Host.Outcome State Fault Refusal :=
  step { s with port := [.access t] }

/-- R162's example, and that bit 0 clears nothing. -/
theorem test_status_write : after (performing busy (.write 4 0x04#8 0x2#32)) (·.memRead 0x04#8) = some 1#32 ∧
    after (performing busy (.write 4 0x04#8 0x1#32)) (·.memRead 0x04#8) = some 3#32 := by decide

/-- R164: the host can not reset SEQ. -/
theorem test_seq_write_ignored : after (performing busy (.write 4 0x10#8 0x55#32)) (·.toCells) = some busy.toCells := by
  decide

/-- R165: the data word a read returns. -/
theorem test_read_status : after (performing busy (.read 4 0x04#8)) (·.response) = some (some 3#32) := by decide

/-- R53: a narrower and an unaligned access. -/
theorem test_unsupported_refused :
    performing busy (.read 2 0x04#8) = .refused (.unsupportedAccess 2 0x04#8) ∧
    performing busy (.write 4 0x05#8 0x2#32) = .refused (.unsupportedAccess 4 0x05#8) := ⟨rfl, rfl⟩

/-- R203: the coinciding command is lost. -/
theorem test_reset_wins : after (step { busy with port := [.reset (some (.write 4 0x00#8 0x10#32))] }) (·.toCells) =
    some State.reset.toCells := by decide

/-- R87, R88: a program's text. -/
theorem test_assemble : assemble ".rept 2\n  crc.byte 0x31 ; one byte\n.endr\nwr @0x04, 2".toList =
    .ok [.write 4 0x00#8 0x3102#32, .write 4 0x00#8 0x3102#32, .write 4 0x04#8 0x2#32] := by decide

/-- R87: an immediate out of range. -/
theorem test_assemble_out_of_range : assemble "crc.byte 256".toList = .error .outOfRange := by decide

/-! ### Witnesses: the hypotheses of the statements can be met -/

/-- The state after a heartbeat from reset. -/
def withHeartbeat : State := State.reset.encodeFrame 0#8 heartbeatPayload

theorem withHeartbeat_inv : FrameInv withHeartbeat := .inr (.inl ⟨rfl, 1#8, by decide +kernel⟩)

/-- The state after an attitude frame over the operands of `attState`. -/
def withAttitude : State := attState.encodeFrame 30#8 attState.attitudePayload

theorem withAttitude_inv : FrameInv withAttitude :=
  .inr (.inr ⟨rfl, 3#8, 0x12345678#32, 0x3F800000#32, 0xBF800000#32, 0x40490FDB#32, by decide +kernel⟩)

/-- `busy` with one event at the port. -/
def facing (e : PortEvent) : State := { busy with port := [e] }

/-- The first and the last index of the frame buffer. -/
theorem witness_ResetStateHoldsTheTableValues : (0 : Nat) < 36 ∧ (35 : Nat) < 36 := by decide

theorem witness_ResetEventRestoresEveryCell :
    (facing (.reset (some (.write 4 0x00#8 0x10#32)))).port = .reset (some (.write 4 0x00#8 0x10#32)) :: [] := rfl

theorem witness_ReadsAfterResetAreTabulated :
    [0x00#8, 0x08#8, 0x14#8, 0x60#8, 0xFC#8].all (fun off => off.extractLsb' 0 2 == 0#2) = true := by decide

theorem witness_EmptyPortChangesNothing : withHeartbeat.port = [] := rfl

theorem witness_StepRunsTheDeliveredCommand :
    (facing (.access (.write 4 0x00#8 0xFFFF3102#32))).port = .access (.write 4 0x00#8 0xFFFF3102#32) :: [] ∧
    decode (le32 0xFFFF3102#32) = .ok (.crcByte 0x31#8, []) := ⟨rfl, by decide⟩

/-- For the opcode map, and for the encoding clause of each command: a word for every clause, and the ends of
the reserved ranges. -/
theorem witness_OpcodeMapAsTabulated :
    (0xFFFF0000#32).extractLsb' 0 8 = 0x00#8 ∧ (0x00000001#32).extractLsb' 0 8 = 0x01#8 ∧
    (0x00003102#32).extractLsb' 0 8 = 0x02#8 ∧ (0x00000003#32).extractLsb' 0 8 = 0x03#8 ∧
    (0xABCD0010#32).extractLsb' 0 8 = 0x10#8 ∧ (0x00000011#32).extractLsb' 0 8 = 0x11#8 ∧
    (0x04#8 ≤ (0x00000004#32).extractLsb' 0 8 ∧ (0x0000000F#32).extractLsb' 0 8 ≤ 0x0F#8) ∧
    0x12#8 ≤ (0x00000012#32).extractLsb' 0 8 ∧ 0x12#8 ≤ (0x000000FF#32).extractLsb' 0 8 := by decide

theorem witness_OnlyOpSelectsTheCommand :
    ((0xABCD0010#32).extractLsb' 0 8 = (0x00003110#32).extractLsb' 0 8 ∧
      (0xABCD0010#32).extractLsb' 0 8 ≠ 0x02#8) ∧
    (0xFFFF3102#32).extractLsb' 0 16 = (0x00003102#32).extractLsb' 0 16 := by decide

theorem witness_DecodeOfEncodeIsTheCommand :
    (Instr.crcByte 0xFF#8).wf = true ∧ (Instr.reserved 0x0F#8).wf = true ∧ (Instr.reserved 0xFF#8).wf = true := by
  decide

theorem witness_ReservedOpcodeSetsErrIllegal :
    [0x04#8, 0x0F#8, 0x12#8, 0xFF#8].all (fun op => (0x04#8 ≤ op && op ≤ 0x0F#8) || 0x12#8 ≤ op) = true := by decide

theorem witness_EncodeFrameLaysTheFrameOut :
    heartbeatPayload.length ≤ 28 ∧ attState.attitudePayload.length ≤ 28 ∧ ([] : List Byte).length ≤ 28 := by decide

/-- Aligned reserved offsets at the ends of their ranges; the frame indices 0 and 8 are below 9. -/
theorem witness_ReadsReturnTheRegisterMap :
    [0x1C#8, 0x30#8, 0x3C#8, 0x64#8, 0xFC#8].all (fun off => off.extractLsb' 0 2 == 0#2 &&
      (off == 0x1C#8 || (0x30#8 ≤ off && off ≤ 0x3C#8) || 0x64#8 ≤ off)) = true ∧
    (facing (.access (.read 4 0x60#8))).port = .access (.read 4 0x60#8) :: [] := by decide

theorem witness_StatusWriteClearsErrIllegal :
    (facing (.access (.write 4 0x04#8 0x2#32))).port = .access (.write 4 0x04#8 0x2#32) :: [] := rfl

theorem witness_OperandWritesStoreTheWord :
    (facing (.access (.write 4 0x20#8 7#32))).port = .access (.write 4 0x20#8 7#32) :: [] ∧
    (facing (.access (.write 4 0x24#8 7#32))).port = .access (.write 4 0x24#8 7#32) :: [] ∧
    (facing (.access (.write 4 0x28#8 7#32))).port = .access (.write 4 0x28#8 7#32) :: [] ∧
    (facing (.access (.write 4 0x2C#8 7#32))).port = .access (.write 4 0x2C#8 7#32) :: [] := ⟨rfl, rfl, rfl, rfl⟩

theorem witness_WritesToOtherOffsetsAreIgnored :
    [0x08#8, 0x0C#8, 0x10#8, 0x14#8, 0x18#8, 0x1C#8, 0x30#8, 0x3C#8, 0x40#8, 0x60#8, 0x64#8, 0xFC#8].all
      (fun off => off.extractLsb' 0 2 == 0#2 &&
        ((facing (.access (.write 4 off 7#32))).port == [.access (.write 4 off 7#32)])) = true := by decide

theorem witness_OtherAccessesAreRefused :
    ((2 : Nat) ≠ 4 ∨ (0x04#8).extractLsb' 0 2 ≠ 0#2) ∧ ((4 : Nat) ≠ 4 ∨ (0x05#8).extractLsb' 0 2 ≠ 0#2) ∧
    (facing (.access (.read 2 0x04#8))).port = .access (.read 2 0x04#8) :: [] ∧
    (facing (.access (.write 4 0x05#8 0#32))).port = .access (.write 4 0x05#8 0#32) :: [] := by decide

/-- A command, a read at the window's last word, and a reset that coincides with a transaction. -/
theorem witness_EverySupportedEventCompletes :
    ∀ e ∈ [cmdWrite 0x10#32, .access (.read 4 0xFC#8), .reset (some (.write 4 0x00#8 0x10#32))],
      (facing e).port = e :: [] ∧
      (∀ n off, e = .access (.read n off) → n = 4 ∧ off.extractLsb' 0 2 = 0#2) ∧
      (∀ n off v, e = .access (.write n off v) → n = 4 ∧ off.extractLsb' 0 2 = 0#2) := by
  simp [facing, cmdWrite, Config.portBytes, Reg.offset]

/-- A step on every kind of event answers a next state: the hypothesis of the statements about which events
change which cell, FRAME_VALID's among them. -/
theorem witness_step_answers_next :
    (∃ t, step withHeartbeat = .next t) ∧ (∃ t, step (facing (.reset none)) = .next t) ∧
    (∃ t, step (facing (.access (.read 4 0x10#8))) = .next t) ∧
    (∃ t, step (facing (.access (.write 4 0x04#8 2#32))) = .next t) ∧
    (∃ t, step (facing (.access (.write 4 0x20#8 2#32))) = .next t) ∧
    (∃ t, step (facing (.access (.write 4 0x00#8 0x3102#32))) = .next t) ∧
    (∃ t, step (facing (.access (.write 4 0x00#8 0x11#32))) = .next t) ∧
    (∃ t, step (facing (.access (.write 4 0x00#8 0xFF#32))) = .next t) :=
  ⟨⟨_, rfl⟩, ⟨_, rfl⟩, ⟨_, rfl⟩, ⟨_, rfl⟩, ⟨_, rfl⟩, ⟨_, rfl⟩, ⟨_, rfl⟩, ⟨_, rfl⟩⟩

theorem witness_FrameBufferChangesOnlyByEncoding :
    (∃ t, step (facing (.access (.write 4 0x00#8 0x3102#32))) = .next t) ∧
    ∀ e rest, (facing (.access (.write 4 0x00#8 0x3102#32))).port = e :: rest →
      e.isAccess = true ∧ e.command? ≠ some .encHb ∧ e.command? ≠ some .encAtt :=
  ⟨⟨_, rfl⟩, fun _ _ h => (by cases h; decide)⟩

theorem witness_EveryStepKeepsTheFrameInvariant :
    FrameInv (withHeartbeat.withFetchWord 32 0x11) ∧
    ∃ t, step (withHeartbeat.withFetchWord 32 0x11) = .next t :=
  ⟨withHeartbeat_inv, ⟨_, rfl⟩⟩

theorem witness_SupportedPortIsDrained :
    ({ busy with port := [.access (.read 4 0x10#8), .reset none, cmdWrite 0x11#32] } : State).port.all
      PortEvent.supported = true := by decide

/-- A command, a reset, and a command after the reset. -/
theorem witness_LaterEventsDoNotReachBack :
    ∃ t, runFor [cmdWrite 0x3102#32, .reset none, cmdWrite 0x03#32].length
      { busy with port := [cmdWrite 0x3102#32, .reset none, cmdWrite 0x03#32] } = .next t := ⟨_, rfl⟩

theorem witness_LastResponseIsNoState :
    (facing (cmdWrite 0x10#32)).port = cmdWrite 0x10#32 :: [] := rfl

theorem witness_StatusAndOperandWritesAreIdempotent :
    [0x04#8, 0x20#8, 0x24#8, 0x28#8, 0x2C#8].all (fun off =>
      off == 0x04#8 || off == 0x20#8 || off == 0x24#8 || off == 0x28#8 || off == 0x2C#8) = true := by decide

theorem witness_CounterCountsItsCalls :
    undisturbed [cmdWrite 0x03#32, .access (.read 4 0x10#8), cmdWrite 0x10#32, cmdWrite 0x11#32] = true := by decide

theorem witness_StreamedBytesGiveTheirChecksum :
    ((cmdWrite 0x01#32).command? = some .crcInit) ∧
    undisturbed [cmdWrite 0x3102#32, cmdWrite 0x10#32, cmdWrite 0x3202#32] = true ∧
    (∀ e ∈ [cmdWrite 0x3102#32, cmdWrite 0x10#32, cmdWrite 0x3202#32], e.command? ≠ some .crcInit) := by decide

/-- After a reset as the first event. -/
theorem witness_StreamedBytesGiveTheirChecksum_reset :
    ∃ lost, PortEvent.reset none = .reset lost := ⟨none, rfl⟩

/-- The program that feeds the frame of `s` back from offset 1 to its end. -/
def checkingProgram (s : State) : List PortEvent :=
  programEvents (command .crcInit :: crcBytesProgram (s.fb.slice 1 (s.frameLen.toNat - 1)))

/-- `s` with that program at its port. -/
def checking (s : State) : State := { s with port := checkingProgram s }

theorem witness_CheckingAFrameLeavesTheResidue :
    ∀ s ∈ [checking withHeartbeat, checking withAttitude],
      FrameInv s ∧ s.frameLen ≠ 0 ∧ s.port =
        programEvents (command .crcInit :: crcBytesProgram (s.fb.slice 1 (s.frameLen.toNat - 1))) := by
  intro s hs
  obtain rfl | rfl : s = checking withHeartbeat ∨ s = checking withAttitude := by simpa using hs
  · exact ⟨withHeartbeat_inv, by decide, rfl⟩
  · exact ⟨withAttitude_inv, by decide, rfl⟩

theorem witness_programs :
    ({ busy with port := programEvents (crc16Program [0x31#8]) } : State).port =
      programEvents (crc16Program [0x31#8]) ∧
    ({ busy with port := programEvents (encAttSetProgram 1#32 2#32 3#32 4#32) } : State).port =
      programEvents (encAttSetProgram 1#32 2#32 3#32 4#32) ∧
    ({ withAttitude with port := programEvents frameReadProgram } : State).port =
      programEvents frameReadProgram := ⟨rfl, rfl, rfl⟩

theorem witness_ChangedByteChangesTheChecksum : (0x00#8 : Byte) ≠ 0x80#8 := by decide

theorem witness_MnemonicsAssembleToTheirWords : (255 : Nat) < 256 ∧ 256 ≤ (256 : Nat) := by decide

/-- The first and the last address of a window, and the addresses just outside it. -/
theorem witness_OnlyTheWindowIsRouted :
    route 0x40000000 0x40000000 = some 0x00#8 ∧ route 0x40000000 0x400000FF = some 0xFF#8 ∧
    (0x3FFFFFFF < 0x40000000 ∨ 0x40000000 + 256 ≤ 0x3FFFFFFF) ∧
    (0x40000100 < 0x40000000 ∨ 0x40000000 + 256 ≤ 0x40000100) := by decide

end Sys2Proof.Tests
end

section
/-! SUPPORT. What one step can do to the cells, from the port's first event, and the statements of 10_state.md
about which events change which cell. -/

namespace Sys2Proof.Machine

/-! ### The events that carry a command, and those that do not -/

/-- R53's check on a write, field by field. -/
theorem Transaction.supported_write_iff (n : Nat) (off : BitVec 8) (v : Word) :
    (Transaction.write n off v).supported = true ↔ n = 4 ∧ off.extractLsb' 0 2 = 0#2 := by
  simp [Transaction.supported, Transaction.width, Transaction.off]

/-- Among the aligned offsets, 0x00 alone selects CMD (R34). -/
theorem Reg.ofOffset_eq_cmd_iff {off : BitVec 8} (h : off.extractLsb' 0 2 = 0#2) :
    Reg.ofOffset off = .cmd ↔ off = 0x00#8 := by
  revert off
  decide

/-- Among the aligned offsets, 0x04 alone selects STATUS (R34). -/
theorem Reg.ofOffset_eq_status_iff {off : BitVec 8} (h : off.extractLsb' 0 2 = 0#2) :
    Reg.ofOffset off = .status ↔ off = 0x04#8 := by
  revert off
  decide

@[simp] theorem PortEvent.command?_read (n : Nat) (off : BitVec 8) :
    (PortEvent.access (.read n off)).command? = none := rfl

@[simp] theorem PortEvent.command?_write_cmd (w : Word) :
    (PortEvent.access (.write 4 0x00#8 w)).command? = some (decodeWord w) := rfl

theorem PortEvent.command?_write_of_ne_cmd {off : BitVec 8} (h : Reg.ofOffset off ≠ .cmd) (n : Nat)
    (v : Word) : (PortEvent.access (.write n off v)).command? = none := by
  simp [PortEvent.command?, h]

/-- R80: only a supported write to CMD delivers a command, the one its word decodes to. -/
theorem PortEvent.command?_eq_some {e : PortEvent} {i : Instr} (h : e.command? = some i) :
    ∃ w, e = .access (.write 4 0x00#8 w) ∧ i = decodeWord w := by
  match e, h with
  | .access (.write n off w), h =>
    simp only [PortEvent.command?, Option.ite_none_right_eq_some, Bool.and_eq_true, beq_iff_eq,
      Option.some.injEq, Transaction.supported_write_iff] at h
    obtain ⟨⟨⟨rfl, haligned⟩, hcmd⟩, rfl⟩ := h
    obtain rfl := (Reg.ofOffset_eq_cmd_iff haligned).mp hcmd
    exact ⟨w, rfl, rfl⟩

/-! ### What a step can do -/

/-- Everything a step can do when it answers a next state, by the port's first event: no event, a reset, a
read, a command, a write to another register. -/
theorem step_cases {s t : State} (h : step s = .next t) :
    (s.port = [] ∧ t = s) ∨
    (∃ lost rest, s.port = .reset lost :: rest ∧ t = (s.accept rest).resetCells) ∨
    (∃ n off rest, s.port = .access (.read n off) :: rest ∧
      t = (s.accept rest).respond (s.memRead off)) ∨
    (∃ w rest, s.port = .access (.write 4 0x00#8 w) :: rest ∧
      exec (decodeWord w) (s.accept rest) = .next t) ∨
    (∃ off v rest, s.port = .access (.write 4 off v) :: rest ∧ off.extractLsb' 0 2 = 0#2 ∧
      Reg.ofOffset off ≠ .cmd ∧ t = (s.accept rest).writeReg v (Reg.ofOffset off)) := by
  cases hp : s.port with
  | nil =>
    rw [step_nil hp] at h
    exact .inl ⟨rfl, by simpa using h.symm⟩
  | cons e rest =>
    rw [step_cons hp] at h
    obtain ⟨lost, rfl, rfl⟩ | ⟨n, off, rfl, -, -, rfl⟩ | ⟨i, -, -, hcmd, hexec⟩ |
      ⟨n, off, v, rfl, hsup, hne, -, rfl⟩ := takeEvent_cases h
    · exact .inr (.inl ⟨lost, rest, rfl, rfl⟩)
    · exact .inr (.inr (.inl ⟨n, off, rest, rfl, rfl⟩))
    · obtain ⟨w, rfl, rfl⟩ := PortEvent.command?_eq_some hcmd
      exact .inr (.inr (.inr (.inl ⟨w, rest, rfl, hexec⟩)))
    · obtain ⟨rfl, haligned⟩ := (Transaction.supported_write_iff n off v).mp hsup
      exact .inr (.inr (.inr (.inr ⟨off, v, rest, rfl, haligned, hne, rfl⟩)))

/-! ### A register write, cell by cell -/

section writeReg
variable (s : State) (v : Word) (r : Reg)

@[simp] theorem State.writeReg_crcState : (s.writeReg v r).crcState = s.crcState :=
  (s.writeReg_frame v r).1

@[simp] theorem State.writeReg_seq : (s.writeReg v r).seq = s.seq :=
  (s.writeReg_frame v r).2.1

@[simp] theorem State.writeReg_frameLen : (s.writeReg v r).frameLen = s.frameLen := by
  obtain ⟨-, -, -, h, -⟩ := s.writeReg_frame v r
  exact h

@[simp] theorem State.writeReg_config : (s.writeReg v r).config = s.config := by
  obtain ⟨-, -, -, -, h, -⟩ := s.writeReg_frame v r
  exact h

/-- R162 and R164: of the register writes, the one to STATUS alone can change ERR_ILLEGAL, and it clears the
flag where bit 1 of the value is 1. -/
theorem State.writeReg_errIllegal : (s.writeReg v r).errIllegal =
    if r = .status then s.errIllegal && !v.getLsbD 1 else s.errIllegal := by
  cases r with
  | status =>
    simp only [State.writeReg, State.writeStatus]
    cases v.getLsbD 1 <;> simp
  | _ => rfl

end writeReg

/-! ### A command, cell by cell -/

/-- What an event that carries the command `c`, or none, makes of CRC_STATE (R21). -/
def crcStateAfter (c : Option Instr) (v : Half) : Half :=
  match c with
  | some .crcInit => 0xFFFF#16
  | some (.crcByte b) => crcStep v b
  | _ => v

/-- What an event that carries the command `c`, or none, makes of SEQ (R22). -/
def seqAfter (c : Option Instr) (v : Byte) : Byte :=
  match c with
  | some .encHb => v + 1
  | some .encAtt => v + 1
  | some .seqNext => v + 1
  | _ => v

/-- What an event that carries the command `c`, or none, makes of FRAME_VALID (R28). -/
def frameValidAfter (c : Option Instr) (v : Bool) : Bool :=
  match c with
  | some .encHb => true
  | some .encAtt => true
  | _ => v

/-- Whether ERR_ILLEGAL is set after a command (R27). -/
def errIllegalAfter (i : Instr) (v : Bool) : Bool :=
  match i with
  | .reserved _ => true
  | _ => v

theorem State.frameValid_congr {s t : State} (h : t.frameLen = s.frameLen) :
    t.frameValid = s.frameValid := by
  rw [State.frameValid, h, State.frameValid]

section exec
variable {i : Instr} {s t : State} (h : exec i s = .next t)
include h

theorem exec_crcState : t.crcState = crcStateAfter (some i) s.crcState := by
  obtain ⟨u, hu, hcrc, -⟩ := exec_next i s
  cases hu.symm.trans h
  rw [hcrc]
  cases i <;> rfl

theorem exec_seq : t.seq = seqAfter (some i) s.seq := by
  obtain ⟨u, hu, -, hseq, -⟩ := exec_next i s
  cases hu.symm.trans h
  rw [hseq]
  cases i <;> rfl

theorem exec_frameLen (hhb : i ≠ .encHb) (hatt : i ≠ .encAtt) : t.frameLen = s.frameLen := by
  obtain ⟨u, hu, -, -, hframe, -⟩ := exec_next i s
  cases hu.symm.trans h
  exact (hframe hhb hatt).2

/-- The encoders leave a FRAME_LEN of 17 or 36, and every other command leaves FRAME_LEN as it was. -/
theorem exec_frameValid : t.frameValid = frameValidAfter (some i) s.frameValid := by
  cases i with
  | encHb =>
    cases h
    rfl
  | encAtt =>
    cases h
    rfl
  | _ => exact State.frameValid_congr (exec_frameLen h nofun nofun)

theorem exec_errIllegal : t.errIllegal = errIllegalAfter i s.errIllegal := by
  obtain ⟨u, hu, -, -, -, herr, -⟩ := exec_next i s
  cases hu.symm.trans h
  rw [herr]
  cases i <;> rfl

theorem exec_config : t.config = s.config := by
  obtain ⟨u, hu, -, -, -, -, -, -, -, -, hconfig, -⟩ := exec_next i s
  cases hu.symm.trans h
  exact hconfig

end exec

/-! ### The cells that only commands and reset change -/

/-- A view of the state that a reset sets to `atReset`, an event with or without a command takes through
`after`, and nothing else changes: no register write, no read, and not the port's handing an event over. -/
structure ChangedOnlyByCommands {α : Type} (view : State → α) (atReset : α)
    (after : Option Instr → α → α) : Prop where
  accept : ∀ s rest, view (s.accept rest) = view s
  reset : ∀ s : State, view s.resetCells = atReset
  respond : ∀ s v, view (s.respond v) = view s
  writeReg : ∀ s v r, view (s.writeReg v r) = view s
  noCommand : ∀ a, after none a = a
  exec : ∀ {i s t}, exec i s = .next t → view t = after (some i) (view s)

/-- The law of such a view over every step, by the cases of a step. -/
theorem ChangedOnlyByCommands.step {α : Type} {view : State → α} {atReset : α}
    {after : Option Instr → α → α} (hview : ChangedOnlyByCommands view atReset after) {s t : State}
    (h : step s = .next t) : view t =
      match s.port with
      | [] => view s
      | .reset _ :: _ => atReset
      | e :: _ => after e.command? (view s) := by
  obtain ⟨hp, rfl⟩ | ⟨lost, rest, hp, rfl⟩ | ⟨n, off, rest, hp, rfl⟩ | ⟨w, rest, hp, hexec⟩ |
    ⟨off, v, rest, hp, -, hne, rfl⟩ := step_cases h
  · simp only [hp]
  · simp only [hp, hview.reset]
  · simp only [hp, PortEvent.command?_read, hview.noCommand, hview.respond, hview.accept]
  · simp only [hp, PortEvent.command?_write_cmd, hview.exec hexec, hview.accept]
  · simp only [hp, PortEvent.command?_write_of_ne_cmd hne, hview.noCommand, hview.writeReg, hview.accept]

theorem crcState_changedOnlyByCommands :
    ChangedOnlyByCommands (fun s => s.crcState) 0xFFFF#16 crcStateAfter where
  accept := State.accept_crcState
  reset _ := rfl
  respond := State.respond_crcState
  writeReg := State.writeReg_crcState
  noCommand _ := rfl
  exec := exec_crcState

theorem seq_changedOnlyByCommands : ChangedOnlyByCommands (fun s => s.seq) 0 seqAfter where
  accept := State.accept_seq
  reset _ := rfl
  respond := State.respond_seq
  writeReg := State.writeReg_seq
  noCommand _ := rfl
  exec := exec_seq

theorem frameValid_changedOnlyByCommands :
    ChangedOnlyByCommands State.frameValid false frameValidAfter where
  accept _ _ := rfl
  reset _ := rfl
  respond _ _ := rfl
  writeReg s v r := State.frameValid_congr (s.writeReg_frameLen v r)
  noCommand _ := rfl
  exec := exec_frameValid

/-! ### The configuration -/

/-- The ID register shows the four parameters (R41). -/
theorem State.memRead_id (s : State) : s.memRead 0x14#8 =
    s.config.msgIdAttitude ++ s.config.msgIdHeartbeat ++ s.config.componentId ++ s.config.systemId := rfl

/-- R29: the configuration is the same after every step. -/
theorem step_config {s t : State} (h : step s = .next t) : t.config = s.config := by
  obtain ⟨-, rfl⟩ | ⟨lost, rest, -, rfl⟩ | ⟨n, off, rest, -, rfl⟩ | ⟨w, rest, -, hexec⟩ |
    ⟨off, v, rest, -, -, -, rfl⟩ := step_cases h
  · rfl
  · rfl
  · rfl
  · rw [exec_config hexec, State.accept_config]
  · rw [State.writeReg_config, State.accept_config]

/-! ### The statements -/

/-- Settles O29, as the law of a view that only commands and reset change. -/
theorem crcStateChangesOnlyByItsCommands : Obligations.CrcStateChangesOnlyByItsCommands :=
  fun _ _ h => crcState_changedOnlyByCommands.step h

/-- Settles O30, as the law of a view that only commands and reset change. -/
theorem seqChangesOnlyByItsCommands : Obligations.SeqChangesOnlyByItsCommands :=
  fun _ _ h => seq_changedOnlyByCommands.step h

/-- Settles O32, by the cases of a step: a command sets ERR_ILLEGAL where it is a reserved one, and a register
write clears it where its aligned offset is STATUS's. -/
theorem errIllegalChangesOnlyByItsCauses : Obligations.ErrIllegalChangesOnlyByItsCauses := by
  intro s t h
  obtain ⟨hp, rfl⟩ | ⟨lost, rest, hp, rfl⟩ | ⟨n, off, rest, hp, rfl⟩ | ⟨w, rest, hp, hexec⟩ |
    ⟨off, v, rest, hp, haligned, hne, rfl⟩ := step_cases h
  · simp only [hp]
  · simp only [hp]
    rfl
  · simp only [hp, State.respond_errIllegal, State.accept_errIllegal]
  · rw [hp, exec_errIllegal hexec]
    rfl
  · have hoff : off ≠ 0x00#8 := mt (Reg.ofOffset_eq_cmd_iff haligned).mpr hne
    simp only [hp, State.writeReg_errIllegal, Reg.ofOffset_eq_status_iff haligned, hoff, if_false,
      State.accept_errIllegal]

/-- Settles O34, from `step_config`: ID is read from the configuration alone. -/
theorem configurationNeverChanges : Obligations.ConfigurationNeverChanges := by
  intro s t h
  exact ⟨step_config h, by rw [State.memRead_id, step_config h]⟩

/-- Settles O35, as the law of a view that only commands and reset change. -/
theorem frameValidStaysUntilReset : Obligations.FrameValidStaysUntilReset :=
  ⟨fun _ => rfl, fun _ _ h => frameValid_changedOnlyByCommands.step h⟩

end Sys2Proof.Machine
end

section
/-! SUPPORT. What decoding depends on: DATA8 under CRC_BYTE's opcode alone, and RSVD never (30_encoding.md
R84). -/

namespace Sys2Proof

/-- R84: DATA8 is ignored under every opcode but CRC_BYTE's. -/
theorem decodeFields_ignores_data8 {op : Byte} (h : op ≠ 0x02#8) (data8 data8' : Byte) :
    decodeFields op data8 = decodeFields op data8' := by
  simp only [decodeFields, if_neg h]

/-- OP is the low byte of a word's low half (R81). -/
theorem opField_eq_loByte (w : Word) : opField w = Machine.loByte (w.extractLsb' 0 16) :=
  (BitVec.extractLsb'_extractLsb'_of_le (by decide)).symm

/-- DATA8 is the high byte of a word's low half (R81). -/
theorem data8Field_eq_hiByte (w : Word) : data8Field w = Machine.hiByte (w.extractLsb' 0 16) :=
  (BitVec.extractLsb'_extractLsb'_of_le (by decide)).symm

/-- R84: decoding reads only the low half of the word, so RSVD is ignored. -/
theorem decodeWord_eq_decodeFields_lowHalf (w : Word) : decodeWord w =
    decodeFields (Machine.loByte (w.extractLsb' 0 16)) (Machine.hiByte (w.extractLsb' 0 16)) := by
  rw [decodeWord, opField_eq_loByte, data8Field_eq_hiByte]

/-- Settles O8: under another opcode than CRC_BYTE's the decoder reads OP alone, and under any opcode it
reads no bit above the low half. -/
theorem onlyOpSelectsTheCommand : Obligations.OnlyOpSelectsTheCommand := by
  refine ⟨fun w w' hop hne => ?_, fun w w' hlow => ?_, by decide, by decide⟩
  · have hop : opField w = opField w' := hop
    calc decodeFields (opField w) (data8Field w)
      _ = decodeFields (opField w) (data8Field w') := decodeFields_ignores_data8 hne _ _
      _ = decodeFields (opField w') (data8Field w') := by rw [hop]
  · rw [decodeWord_eq_decodeFields_lowHalf w, decodeWord_eq_decodeFields_lowHalf w', hlow]

end Sys2Proof
end

section
/-! SUPPORT. The CRC engine as a function (40_crc.md R100, R106): its eight shifts, its step by the two bytes of
the register, and the residue that a list of bytes leaves once its checksum is fed after it. -/

namespace Sys2Proof.Machine

/-! ### The shifts -/

/-- R100's loop is the iterate of its one pass. -/
theorem crcShifts_eq_iterate (n : Nat) : ∀ r : Half, crcShifts n r = crcShift^[n] r := by
  induction n with
  | zero => intro r; rfl
  | succ n ih => intro r; exact ih (crcShift r)

/-- A pass that finds bit 0 clear only shifts. -/
theorem crcShift_of_bit0_clear {r : Half} (h : r.getLsbD 0 = false) : crcShift r = r >>> 1 := by
  simp only [crcShift, h, Bool.false_eq_true, if_false]

/-- Passes over clear bits only shift: the polynomial never comes in. -/
theorem crcShifts_of_low_bits_clear (n : Nat) : ∀ r : Half, (∀ i < n, r.getLsbD i = false) →
    crcShifts n r = r >>> n := by
  induction n with
  | zero => intro r _; exact (BitVec.ushiftRight_zero r).symm
  | succ n ih =>
    intro r h
    have hrest : ∀ i < n, (r >>> 1).getLsbD i = false := by
      intro i hi
      rw [BitVec.getLsbD_ushiftRight]
      exact h (1 + i) (by omega)
    rw [crcShifts, crcShift_of_bit0_clear (h 0 (by omega)), ih _ hrest, ← BitVec.shiftRight_add,
      Nat.add_comm]

/-! ### The step, by the register's two bytes -/

/-- A register is its high byte above its low byte (R11). -/
theorem hiByte_append_loByte (c : Half) : hiByte c ++ loByte c = c :=
  BitVec.extractLsb'_append_extractLsb'

theorem zextByte_eq_append (b : Byte) : zextByte b = 0#8 ++ b :=
  BitVec.setWidth_eq_append (by decide)

theorem zextByte_xor (a b : Byte) : zextByte (a ^^^ b) = zextByte a ^^^ zextByte b :=
  BitVec.setWidth_xor

/-- A byte reaches only the register's low byte (R82). -/
theorem append_xor_zextByte (h l b : Byte) :
    (h ++ l : Half) ^^^ zextByte b = (h ++ 0#8) ^^^ zextByte (l ^^^ b) := by
  rw [zextByte_eq_append, zextByte_eq_append, BitVec.xor_append, BitVec.xor_append, BitVec.zero_xor]

/-- Eight passes bring a high byte down, with clear bits under it. -/
theorem crcShifts_eight_hiByte (h : Byte) : crcShifts 8 (h ++ 0#8) = zextByte h := by
  have hlow : ∀ i < 8, (h ++ 0#8).getLsbD i = false := by
    intro i hi
    rw [BitVec.getLsbD_append, if_pos hi, BitVec.getLsbD_zero]
  calc crcShifts 8 (h ++ 0#8)
    _ = (h ++ 0#8) >>> 8 := crcShifts_of_low_bits_clear 8 _ hlow
    _ = 0#8 ++ (h ++ 0#8).extractLsb' 8 8 := BitVec.ushiftRight_eq_extractLsb'_of_lt (by decide)
    _ = zextByte h := by rw [BitVec.extractLsb'_append_eq_left, zextByte_eq_append]

/-- The byte-wide form of R100's step: the high byte comes down, and the low byte with the data byte selects
what is XORed into it. -/
theorem crcStep_append (h l b : Byte) :
    crcStep (h ++ l) b = zextByte h ^^^ crcStep 0#16 (l ^^^ b) := by
  rw [crcStep, append_xor_zextByte, crcShifts_xor, crcShifts_eight_hiByte, crcStep, BitVec.zero_xor]

/-- What stands in the low byte counts as if it came with the data byte. -/
theorem crcStep_zextByte_xor (a b : Byte) (v : Half) :
    crcStep (zextByte a ^^^ v) b = crcStep v (a ^^^ b) := by
  rw [crcStep, crcStep, zextByte_xor, ← BitVec.xor_assoc, BitVec.xor_comm v]

/-! ### The residue -/

/-- A byte of the register meets the same byte of its complement. -/
theorem extractByte_xor_extractByte_not (c : Half) (k : Nat) :
    c.extractLsb' k 8 ^^^ (~~~ c).extractLsb' k 8 = (BitVec.allOnes 16).extractLsb' k 8 := by
  rw [← BitVec.extractLsb'_xor, ← BitVec.xor_allOnes, ← BitVec.xor_assoc, BitVec.xor_self,
    BitVec.zero_xor]

theorem loByte_xor_loByte_not (c : Half) : loByte c ^^^ loByte (~~~ c) = 0xFF#8 :=
  (extractByte_xor_extractByte_not c 0).trans (by decide)

theorem hiByte_xor_hiByte_not (c : Half) : hiByte c ^^^ hiByte (~~~ c) = 0xFF#8 :=
  (extractByte_xor_extractByte_not c 8).trans (by decide)

/-- R106's residue: fed its own complement, low byte first, the register ends at 0xF0B8 whatever it held, for
each byte of it meets its complement. -/
theorem crcFold_le16_not (c : Half) : crcFold c (le16 (~~~ c)) = 0xF0B8#16 :=
  calc crcStep (crcStep c (loByte (~~~ c))) (hiByte (~~~ c))
    _ = crcStep (zextByte (hiByte c) ^^^ crcStep 0#16 0xFF#8) (hiByte (~~~ c)) := by
      rw [← loByte_xor_loByte_not c, ← crcStep_append, hiByte_append_loByte]
    _ = crcStep (crcStep 0#16 0xFF#8) 0xFF#8 := by
      rw [crcStep_zextByte_xor, hiByte_xor_hiByte_not]
    _ = crcStep 0x0F78#16 0xFF#8 := congrArg (crcStep · 0xFF#8) (by decide)
    _ = 0xF0B8#16 := by decide

/-- R106: any bytes and their checksum after them leave the residue. -/
theorem crcFold_append_checksum (bs : List Byte) :
    crcFold 0xFFFF#16 (bs ++ le16 (crc16 bs)) = 0xF0B8#16 := by
  rw [crcFold_append]
  exact crcFold_le16_not _

/-! ### The statement -/

/-- Settles O14: the eight passes are the iterate of one. -/
theorem crcStepIsEightConditionalShifts : Obligations.CrcStepIsEightConditionalShifts :=
  fun _ _ => crcShifts_eq_iterate 8 _

end Sys2Proof.Machine
end

section
/-! SUPPORT. Words and the commands they deliver: what a word of a given opcode decodes to, that an encoded
command is delivered as itself (30_encoding.md R83, R88), and the statements about CRC_INIT and CRC_BYTE
(40_crc.md R103, R104). -/

namespace Sys2Proof

/-! ### Decoding -/

/-- R83: OP 0x01 is CRC_INIT. -/
theorem decodeWord_of_op_crcInit {w : Word} (h : opField w = 0x01#8) : decodeWord w = .crcInit := by
  rw [decodeWord, h]
  rfl

/-- R83: OP 0x02 is CRC_BYTE of DATA8. -/
theorem decodeWord_of_op_crcByte {w : Word} (h : opField w = 0x02#8) :
    decodeWord w = .crcByte (data8Field w) := by
  rw [decodeWord, h]
  rfl

/-- The fields of every instruction's word, by the lemma of its constructor. -/
theorem encodeFields : ∀ i, Laws.EncodeFields.Statement i
  | .nop => Laws.EncodeFields.nop
  | .crcInit => Laws.EncodeFields.crcInit
  | .crcByte b => Laws.EncodeFields.crcByte b
  | .seqNext => Laws.EncodeFields.seqNext
  | .encHb => Laws.EncodeFields.encHb
  | .encAtt => Laws.EncodeFields.encAtt
  | .reserved op => Laws.EncodeFields.reserved op

/-- R83: the opcode and the data byte of a well-formed instruction select it. -/
theorem decodeFields_opcode {i : Instr} (h : i.wf = true) (data8 : Byte) :
    decodeFields i.opcode (Laws.data8Of data8 i) = i := by
  cases i with
  | reserved op => exact Laws.decodeFields_reserved h _
  | _ => rfl

/-- A well-formed instruction is what its word decodes to, whatever stands in the ignored bits. -/
theorem decodeWord_encodeWith {i : Instr} (h : i.wf = true) (data8 : Byte) (rsvd : Half) :
    decodeWord (encodeWith data8 rsvd i) = i := by
  obtain ⟨hop, hdata, -⟩ := encodeFields i data8 rsvd
  rw [decodeWord, hop, hdata, decodeFields_opcode h]

end Sys2Proof

namespace Sys2Proof.Machine

/-! ### The commands of the engine -/

theorem exec_crcInit (s : State) : exec .crcInit s = .next (s.setCrc 0xFFFF#16) := rfl

theorem exec_crcByte (b : Byte) (s : State) :
    exec (.crcByte b) s = .next (s.setCrc (crcStep s.crcState b)) := rfl

/-- CRC_RESULT reads as the complement of CRC_STATE (R38). -/
theorem State.memRead_crcResult (s : State) : s.memRead 0x0C#8 = BitVec.setWidth 32 (~~~ s.crcState) := rfl

/-- Settles O12: `exec_crcInit`, and STATUS reads cells that the update of CRC_STATE keeps. -/
theorem crcInitStartsAComputation : Obligations.CrcInitStartsAComputation := by
  refine ⟨fun _ h => decodeWord_of_op_crcInit h,
    fun s => ⟨s.setCrc 0xFFFF#16, exec_crcInit s, rfl, ?_, rfl⟩⟩
  rw [State.memRead_crcResult, State.setCrc_crcState]
  decide

/-- Settles O13: `exec_crcByte`, and the two cases R104 gives in figures. -/
theorem crcByteAdvancesTheEngine : Obligations.CrcByteAdvancesTheEngine := by
  have hword : decodeWord 0x00003102#32 = .crcByte 0x31#8 := by decide
  have hstep : crcStep State.reset.crcState 0x31#8 = 0x2F8D#16 := by decide
  refine ⟨fun _ h => decodeWord_of_op_crcByte h, exec_crcByte, by decide,
    State.reset.setCrc 0x2F8D#16, ?_, rfl, ?_⟩
  · rw [hword, exec_crcByte, hstep]
  · rw [State.memRead_crcResult, State.setCrc_crcState]
    decide

/-! ### The host's command transactions -/

/-- The host's transaction of a well-formed command is a step that runs the command (R88). -/
theorem step_command {s : State} {i : Instr} {rest : List PortEvent} (hwf : i.wf = true)
    (h : s.port = .access (command i) :: rest) : step s = exec i (s.accept rest) := by
  have hcmd : takeEvent (.access (command i)) (s.accept rest) =
      exec (decodeWord (encodeWith 0 0 i)) (s.accept rest) := takeEvent_command rfl rfl _
  rw [step_cons h, hcmd, decodeWord_encodeWith hwf]

end Sys2Proof.Machine
end

section
/-! SUPPORT. Runs of events: a cell that only commands and reset change is, after an undisturbed run, the fold of
what each event makes of it; and the statement about streamed bytes (40_crc.md R105). -/

namespace Sys2Proof.Machine

/-! ### An undisturbed run -/

theorem undisturbed_cons {e : PortEvent} {es : List PortEvent} (h : undisturbed (e :: es) = true) :
    e.isAccess = true ∧ e.supported = true ∧ undisturbed es = true := by
  simpa [undisturbed, and_assoc] using h

/-- A supported event at the head of the port is consumed by one step, which answers a next state. -/
theorem step_supported {s : State} {e : PortEvent} {rest : List PortEvent} (hp : s.port = e :: rest)
    (h : e.supported = true) : ∃ t, step s = .next t ∧ t.port = rest := by
  obtain ⟨t, ht, hport, -⟩ := takeEvent_next h (s.accept rest)
  exact ⟨t, (step_cons hp).trans ht, hport⟩

/-- A command is delivered by a supported event (R80). -/
theorem PortEvent.supported_of_command? {e : PortEvent} {i : Instr} (h : e.command? = some i) :
    e.supported = true := by
  obtain ⟨w, rfl, -⟩ := PortEvent.command?_eq_some h
  rfl

section view
variable {α : Type} {view : State → α} {atReset : α} {after : Option Instr → α → α}
  (hview : ChangedOnlyByCommands view atReset after)
include hview

/-- The law of such a view at a transaction. -/
theorem ChangedOnlyByCommands.step_access {s t : State} {e : PortEvent} {rest : List PortEvent}
    (hp : s.port = e :: rest) (he : e.isAccess = true) (h : Machine.step s = .next t) :
    view t = after e.command? (view s) := by
  cases e with
  | access tr => rw [hview.step h, hp]
  | reset lost => cases he

/-- The law of such a view over an undisturbed run: each event's command acts on it in turn. -/
theorem ChangedOnlyByCommands.run : ∀ (es : List PortEvent) (s : State), undisturbed es = true →
    s.port = es → ∃ t, runFor es.length s = .next t ∧
      view t = es.foldl (fun a e => after e.command? a) (view s)
  | [], s, _, _ => ⟨s, rfl, rfl⟩
  | e :: es, s, h, hp => by
    obtain ⟨haccess, hsupported, hes⟩ := undisturbed_cons h
    obtain ⟨u, hu, hport⟩ := step_supported hp hsupported
    obtain ⟨t, ht, hfold⟩ := ChangedOnlyByCommands.run es u hes hport
    refine ⟨t, (runFor_succ hu es.length).trans ht, ?_⟩
    rw [hfold, hview.step_access hp haccess hu, List.foldl_cons]

end view

/-! ### Streamed bytes -/

/-- An event other than CRC_INIT takes CRC_STATE through the byte it feeds, or leaves it (R105). -/
theorem crcFold_crcBytesOf_cons {e : PortEvent} (h : e.command? ≠ some .crcInit) (es : List PortEvent)
    (c : Half) :
    crcFold c (crcBytesOf (e :: es)) = crcFold (crcStateAfter e.command? c) (crcBytesOf es) := by
  cases hc : e.command? with
  | none => simp [crcBytesOf, hc, crcStateAfter]
  | some i =>
    cases i with
    | crcInit => exact absurd hc h
    | _ => simp [crcBytesOf, hc, crcStateAfter]

/-- Without CRC_INIT among them, events leave in CRC_STATE the fold of the bytes they feed. -/
theorem foldl_crcStateAfter : ∀ (es : List PortEvent) (c : Half),
    (∀ e ∈ es, e.command? ≠ some .crcInit) →
      es.foldl (fun c e => crcStateAfter e.command? c) c = crcFold c (crcBytesOf es)
  | [], _, _ => rfl
  | e :: es, c, h => by
    obtain ⟨he, hes⟩ := List.forall_mem_cons.mp h
    rw [List.foldl_cons, foldl_crcStateAfter es _ hes, crcFold_crcBytesOf_cons he]

/-- CRC_INIT and reset both start a computation: one step, after which CRC_STATE is 0xFFFF (R105). -/
theorem step_starts_crc {s : State} {first : PortEvent} {es : List PortEvent}
    (hfirst : first.command? = some .crcInit ∨ ∃ lost, first = .reset lost)
    (hp : s.port = first :: es) :
    ∃ t, step s = .next t ∧ t.port = es ∧ t.crcState = 0xFFFF#16 := by
  obtain hcmd | ⟨lost, rfl⟩ := hfirst
  · obtain ⟨t, ht, hport⟩ := step_supported hp (PortEvent.supported_of_command? hcmd)
    obtain ⟨w, rfl, hw⟩ := PortEvent.command?_eq_some hcmd
    refine ⟨t, ht, hport, ?_⟩
    rw [crcState_changedOnlyByCommands.step_access hp rfl ht, hcmd]
    rfl
  · exact ⟨(s.accept es).resetCells, step_cons hp, rfl, rfl⟩

/-- Settles O42: the first event starts the computation, and the law of CRC_STATE over the run that follows
folds the bytes fed. -/
theorem streamedBytesGiveTheirChecksum : Obligations.StreamedBytesGiveTheirChecksum := by
  intro s first es hfirst hes hinit hp
  obtain ⟨u, hu, hport, hstart⟩ := step_starts_crc hfirst hp
  obtain ⟨t, ht, hfold⟩ := crcState_changedOnlyByCommands.run es u hes hport
  have hcrc : t.crcState = crcFold 0xFFFF#16 (crcBytesOf es) := by
    rw [hfold, hstart, foldl_crcStateAfter es _ hinit]
  refine ⟨t, (runFor_succ hu es.length).trans ht, hcrc, ?_⟩
  rw [State.memRead_crcResult, hcrc]
  rfl

end Sys2Proof.Machine
end

section
/-! SUPPORT. The host's checksum program (30_encoding.md R88) as a run, what the bytes of a frame from offset 1
on are (42_frame.md R130, R132), and the statement about checking a frame (40_crc.md R106). -/

namespace Sys2Proof.Machine

/-! ### The run of `crc.bytes` -/

/-- The `crc.bytes` program at the head of the port folds its bytes into CRC_STATE and changes nothing else. -/
theorem runFor_crcBytesProgram (rest : List PortEvent) (k : Nat) : ∀ (bs : List Byte) (s : State),
    s.port = programEvents (crcBytesProgram bs) ++ rest → s.response = none →
      runFor (bs.length + k) s = runFor k ((s.accept rest).setCrc (crcFold s.crcState bs))
  | [], s, hp, hr => by
    have hs : s = (s.accept rest).setCrc s.crcState := by
      cases s
      cases hp
      cases hr
      rfl
    rw [List.length_nil, Nat.zero_add, crcFold_nil, ← hs]
  | b :: bs, s, hp, _ => by
    have hstep : step s = .next ((s.accept (programEvents (crcBytesProgram bs) ++ rest)).setCrc
        (crcStep s.crcState b)) := step_command rfl hp
    rw [List.length_cons, Nat.add_right_comm, runFor_succ hstep,
      runFor_crcBytesProgram rest k bs _ rfl rfl]
    rfl

/-- CRC_INIT and then the `crc.bytes` program leave the fold of the bytes from 0xFFFF, from any state. -/
theorem runFor_crcInit_crcBytesProgram {s : State} {bs : List Byte} {rest : List PortEvent}
    (hp : s.port = programEvents (command .crcInit :: crcBytesProgram bs) ++ rest) (k : Nat) :
    runFor (bs.length + 1 + k) s = runFor k ((s.accept rest).setCrc (crcFold 0xFFFF#16 bs)) := by
  have hstep : step s = .next ((s.accept (programEvents (crcBytesProgram bs) ++ rest)).setCrc 0xFFFF#16) :=
    step_command rfl hp
  rw [Nat.add_right_comm, runFor_succ hstep, runFor_crcBytesProgram rest k bs _ rfl rfl]
  rfl

/-! ### A frame from offset 1 on -/

/-- The bytes of a frame that its checksum covers (R132): the start marker and the checksum left out. -/
def coveredBytes (cfg : Config) (mid q : Byte) (payload : List Byte) : List Byte :=
  [BitVec.ofNat 8 payload.length, q, cfg.systemId, cfg.componentId, mid] ++ payload

theorem coveredBytes_length (cfg : Config) (mid q : Byte) (payload : List Byte) :
    (coveredBytes cfg mid q payload).length = payload.length + 5 := by
  simp [coveredBytes]

theorem frameBytes_eq_cons (cfg : Config) (mid q : Byte) (payload : List Byte) :
    frameBytes cfg mid q payload = 0xFE#8 ::
      (coveredBytes cfg mid q payload ++ le16 (crc16 (coveredBytes cfg mid q payload))) := rfl

/-- A frame at the start of the buffer, read from offset 1 to its end, is the covered bytes and their
checksum. -/
theorem FrameBuf.slice_of_frame {fb : FrameBuf} {cfg : Config} {mid q : Byte} {payload after : List Byte}
    (h : fb.toList = frameBytes cfg mid q payload ++ after) :
    fb.slice 1 (payload.length + 7) =
      coveredBytes cfg mid q payload ++ le16 (crc16 (coveredBytes cfg mid q payload)) := by
  rw [FrameBuf.slice, h, frameBytes_eq_cons, List.cons_append, List.drop_succ_cons, List.drop_zero]
  apply List.take_left'
  rw [List.length_append, coveredBytes_length, le16_length]
  omega

/-- Whatever frame the buffer holds, its bytes from offset 1 on are some bytes and their checksum. -/
theorem FrameInv.slice_eq_append_checksum {s : State} (h : FrameInv s) (hlen : s.frameLen ≠ 0) :
    ∃ bs, s.fb.slice 1 (s.frameLen.toNat - 1) = bs ++ le16 (crc16 bs) := by
  obtain ⟨h0, -⟩ | ⟨h17, q, hfb⟩ | ⟨h36, q, t, r, p, y, hfb⟩ := h
  · exact absurd h0 hlen
  · rw [h17]
    exact ⟨_, FrameBuf.slice_of_frame hfb⟩
  · rw [h36]
    exact ⟨_, FrameBuf.slice_of_frame (hfb.trans (List.append_nil _).symm)⟩

/-! ### The statement -/

theorem programEvents_crcInit_crcBytesProgram_length (bs : List Byte) :
    (programEvents (command .crcInit :: crcBytesProgram bs)).length = bs.length + 1 := by
  simp [programEvents, crcBytesProgram]

/-- Settles O43: a frame's bytes from offset 1 on are bytes and their checksum, which the run folds, and any
such fold ends at the residue. -/
theorem checkingAFrameLeavesTheResidue : Obligations.CheckingAFrameLeavesTheResidue := by
  refine ⟨crcFold_append_checksum, ?_⟩
  rintro s es hinv hlen rfl hp
  obtain ⟨bs, hbs⟩ := hinv.slice_eq_append_checksum hlen
  refine ⟨(s.accept []).setCrc 0xF0B8#16, ?_, rfl, ?_⟩
  · rw [programEvents_crcInit_crcBytesProgram_length,
      runFor_crcInit_crcBytesProgram (hp.trans (List.append_nil _).symm) 0, hbs,
      crcFold_append_checksum, runFor_zero]
  · rw [State.memRead_crcResult, State.setCrc_crcState]
    decide

end Sys2Proof.Machine
end

section
/-! SUPPORT. The sequence counter (41_sequence.md): what SEQ_NEXT does (R121), and that an undisturbed run
advances SEQ once for each `seq_next()` call in it (R122). -/

namespace Sys2Proof

/-- R83: OP 0x03 is SEQ_NEXT. -/
theorem decodeWord_of_op_seqNext {w : Word} (h : opField w = 0x03#8) : decodeWord w = .seqNext := by
  rw [decodeWord, h]
  rfl

end Sys2Proof

namespace Sys2Proof.Machine

/-! ### SEQ_NEXT -/

theorem exec_seqNext (s : State) : exec .seqNext s = .next (s.setSeq (s.seq + 1)) := rfl

/-- Settles O17: `exec_seqNext`, and addition on a byte is modulo 256. -/
theorem seqNextAdvancesTheCounter : Obligations.SeqNextAdvancesTheCounter := by
  refine ⟨fun _ h => decodeWord_of_op_seqNext h,
    fun s => ⟨s.setSeq (s.seq + 1), exec_seqNext s, rfl, ?_⟩⟩
  rw [State.setSeq_seq]
  exact BitVec.toNat_add s.seq 1

/-! ### Counting the calls -/

/-- The commands that advance SEQ are the ones that `advancesSeq` names (R22, R123). -/
theorem seqAfter_eq_ite (c : Option Instr) (v : Byte) :
    seqAfter c v = if advancesSeq c then v + 1#8 else v := by
  cases c with
  | none => rfl
  | some i => cases i <;> rfl

/-- Events taken in turn advance SEQ by the number of `seq_next()` calls among them (R122). -/
theorem foldl_seqAfter : ∀ (es : List PortEvent) (v : Byte),
    es.foldl (fun v e => seqAfter e.command? v) v =
      v + BitVec.ofNat 8 (es.countP fun e => advancesSeq e.command?)
  | [], v => (BitVec.add_zero v).symm
  | e :: es, v => by
    rw [List.foldl_cons, foldl_seqAfter es, seqAfter_eq_ite, List.countP_cons]
    by_cases he : advancesSeq e.command? = true
    · rw [if_pos he, if_pos he, BitVec.ofNat_add, BitVec.add_assoc, BitVec.add_comm 1#8]
    · rw [if_neg he, if_neg he, Nat.add_zero]

/-- R122: over an undisturbed run SEQ advances by the number of `seq_next()` calls in it. -/
theorem runFor_seq {s : State} {es : List PortEvent} (hes : undisturbed es = true) (hp : s.port = es) :
    ∃ t, runFor es.length s = .next t ∧
      t.seq = s.seq + BitVec.ofNat 8 (es.countP fun e => advancesSeq e.command?) := by
  obtain ⟨t, ht, hfold⟩ := seq_changedOnlyByCommands.run es s hes hp
  exact ⟨t, ht, hfold.trans (foldl_seqAfter es s.seq)⟩

/-- Settles O41: `runFor_seq` from every state, and from reset, where SEQ is 0, the advance is the count. -/
theorem counterCountsItsCalls : Obligations.CounterCountsItsCalls := by
  refine ⟨fun s es hes hp => runFor_seq hes hp, fun es hes => ?_⟩
  obtain ⟨t, ht, hseq⟩ := runFor_seq (s := { State.reset with port := es }) hes rfl
  have hreset : State.reset.seq = 0#8 := rfl
  refine ⟨t, ht, ?_⟩
  rw [hseq, hreset, BitVec.zero_add, BitVec.toNat_ofNat]

end Sys2Proof.Machine
end

section
/-! SUPPORT. The frame marshaller (42_frame.md): what the encoding procedure of R135 leaves in the buffer, what a
frame at the start of the buffer shows at its offsets (R131, R132), and the statements about ENC_HB (R136) and
ENC_ATT (R137). -/

namespace Sys2Proof

/-- R83: OP 0x10 is ENC_HB. -/
theorem decodeWord_of_op_encHb {w : Word} (h : opField w = 0x10#8) : decodeWord w = .encHb := by
  rw [decodeWord, h]
  rfl

/-- R83: OP 0x11 is ENC_ATT. -/
theorem decodeWord_of_op_encAtt {w : Word} (h : opField w = 0x11#8) : decodeWord w = .encAtt := by
  rw [decodeWord, h]
  rfl

end Sys2Proof

namespace Sys2Proof.Machine

/-! ### The buffer, cut at an index -/

section cut
variable {fb : FrameBuf} {xs ys : List Byte}

/-- A write at the index where a cut falls replaces the byte after the cut. -/
theorem FrameBuf.toList_put_at_cut {k : Nat} {y : Byte} (h : fb.toList = xs ++ y :: ys)
    (hk : xs.length = k) (b : Byte) : (fb.put k b).toList = xs ++ b :: ys := by
  rw [FrameBuf.toList_put, h, List.set_append_right k b hk.le, hk, Nat.sub_self, List.set_cons_zero]

/-- The byte at the index where a cut falls is the one after the cut. -/
theorem FrameBuf.byte_at_cut {k : Nat} {y : Byte} (h : fb.toList = xs ++ y :: ys)
    (hk : xs.length = k) : fb.byte k = y := by
  rw [FrameBuf.byte, h, List.getD_append_right _ _ _ _ hk.le, hk, Nat.sub_self, List.getD_cons_zero]

/-- Bytes that stand from offset 1 on are read back as the slice of their length. -/
theorem FrameBuf.slice_one {n : Nat} {x : Byte} (h : fb.toList = x :: (xs ++ ys))
    (hn : xs.length = n) : fb.slice 1 n = xs := by
  rw [FrameBuf.slice, h, List.drop_succ_cons, List.drop_zero]
  exact List.take_left' hn

end cut

/-! ### The encoding procedure -/

/-- R135's trailer: two zero bytes behind the covered bytes become their checksum, low byte first. -/
theorem toList_putChecksum {fb : FrameBuf} {x : Byte} {covered after : List Byte} {n : Nat}
    (h : fb.toList = x :: (covered ++ 0 :: 0 :: after)) (hn : covered.length = 5 + n) :
    (putChecksum fb n).toList = x :: (covered ++ le16 (crc16 covered)) ++ after := by
  have hlo : (fb.put (6 + n) (loByte (crc16 covered))).toList =
      (x :: covered ++ [loByte (crc16 covered)]) ++ 0 :: after := by
    rw [FrameBuf.toList_put_at_cut (xs := x :: covered) h (by rw [List.length_cons]; omega),
      List.append_assoc, List.singleton_append]
  have hhi : (x :: covered ++ [loByte (crc16 covered)]).length = 7 + n := by
    rw [List.length_append, List.length_cons, List.length_singleton]
    omega
  rw [putChecksum, FrameBuf.slice_one h hn, FrameBuf.toList_put_at_cut hlo hhi]
  simp [le16]

/-- R130 and R135: the procedure leaves the frame of its payload and zeros after it. -/
theorem State.toList_encodeFrame_fb (s : State) (mid : Byte) {payload : List Byte}
    (h : payload.length ≤ 28) : (s.encodeFrame mid payload).fb.toList =
      frameBytes s.config mid (s.seq + 1) payload ++ zeros (28 - payload.length) := by
  have hzeros : zeros (30 - payload.length) = 0 :: 0 :: zeros (28 - payload.length) := by
    rw [Nat.sub_add_comm (n := 28) (m := 2) h]
    rfl
  have hfinal : ((headerAndPayload s.config mid payload).put 2 (s.seq + 1)).toList =
      0xFE#8 :: (coveredBytes s.config mid (s.seq + 1) payload ++
        0 :: 0 :: zeros (28 - payload.length)) := by
    rw [FrameBuf.toList_put, toList_headerAndPayload _ _ _ h, hzeros, List.append_assoc]
    simp [coveredBytes]
  exact toList_putChecksum hfinal ((coveredBytes_length ..).trans (Nat.add_comm ..))

/-! ### A frame at the start of the buffer -/

theorem frameBytes_length (cfg : Config) (mid q : Byte) (payload : List Byte) :
    (frameBytes cfg mid q payload).length = 6 + payload.length + 2 := by
  rw [frameBytes_eq_cons, List.length_cons, List.length_append, coveredBytes_length, le16_length]
  omega

section frame
variable {fb : FrameBuf} {cfg : Config} {mid q : Byte} {payload after : List Byte}
  (h : fb.toList = frameBytes cfg mid q payload ++ after)
include h

/-- R131: byte 1 of a frame is its payload's length. -/
theorem FrameBuf.byte_one_of_frame : fb.byte 1 = BitVec.ofNat 8 payload.length :=
  FrameBuf.byte_at_cut (xs := [0xFE#8]) h rfl

/-- Offsets 1 to 5+N of a frame hold the bytes its checksum covers (R132). -/
theorem FrameBuf.slice_covered_of_frame :
    fb.slice 1 (5 + payload.length) = coveredBytes cfg mid q payload := by
  rw [frameBytes_eq_cons, List.cons_append, List.append_assoc] at h
  exact FrameBuf.slice_one h ((coveredBytes_length ..).trans (Nat.add_comm ..))

/-- R132: the last two bytes of a frame are the little-endian checksum of its own bytes 1 to 5+N. -/
theorem FrameBuf.trailer_of_frame : [fb.byte (6 + payload.length), fb.byte (7 + payload.length)] =
    le16 (crc16 (fb.slice 1 (5 + payload.length))) := by
  rw [FrameBuf.slice_covered_of_frame h]
  have hlen := coveredBytes_length cfg mid q payload
  rw [frameBytes_eq_cons] at h
  generalize coveredBytes cfg mid q payload = covered at h hlen ⊢
  have hlo : fb.toList = 0xFE#8 :: covered ++
      loByte (crc16 covered) :: hiByte (crc16 covered) :: after := by
    simp [h, le16]
  have hhi : fb.toList = (0xFE#8 :: covered ++ [loByte (crc16 covered)]) ++
      hiByte (crc16 covered) :: after := by
    simp [h, le16]
  rw [FrameBuf.byte_at_cut hlo (by rw [List.length_cons]; omega),
    FrameBuf.byte_at_cut hhi (by simp only [List.length_append, List.length_cons, List.length_nil]; omega)]
  rfl

end frame

/-- Settles O21: the procedure leaves a frame at the start of the buffer, and such a frame shows R131's length
and R132's checksum. -/
theorem encodeFrameLaysTheFrameOut : Obligations.EncodeFrameLaysTheFrameOut := by
  intro s mid payload h
  have hfb := s.toList_encodeFrame_fb mid h
  exact ⟨rfl, frameBytes_length .., hfb, FrameBuf.byte_one_of_frame hfb, FrameBuf.trailer_of_frame hfb⟩

/-! ### The encode commands -/

theorem exec_encHb (s : State) :
    exec .encHb s = .next (s.encodeFrame s.config.msgIdHeartbeat heartbeatPayload) := rfl

theorem exec_encAtt (s : State) :
    exec .encAtt s = .next (s.encodeFrame s.config.msgIdAttitude s.attitudePayload) := rfl

theorem heartbeatPayload_length : heartbeatPayload.length = 9 := rfl

theorem State.attitudePayload_length (s : State) : s.attitudePayload.length = 28 := rfl

/-- Bit 0 of STATUS shows FRAME_VALID (R36). -/
theorem State.memRead_status_bit0 (s : State) : (s.memRead 0x04#8).getLsbD 0 = s.frameValid := by
  have hstatus : s.memRead 0x04#8 = s.statusWord := rfl
  rw [hstatus, State.statusWord]
  cases s.errIllegal <;> cases s.frameValid <;> decide

/-- Settles O18: ENC_HB is the procedure on nine zero bytes, whose frame has 17 bytes. -/
theorem encHbEncodesAHeartbeat : Obligations.EncHbEncodesAHeartbeat := by
  refine ⟨fun _ h => decodeWord_of_op_encHb h, fun s => ⟨_, exec_encHb s, rfl, ?_, ?_⟩⟩
  · rw [State.memRead_status_bit0]
    exact exec_frameValid (exec_encHb s)
  · rw [State.toList_encodeFrame_fb s _ (by rw [heartbeatPayload_length]; omega)]
    rfl

/-- Settles O19: ENC_ATT is the procedure on the 28 bytes of the operand cells, whose frame fills the buffer. -/
theorem encAttEncodesAnAttitudeFrame : Obligations.EncAttEncodesAnAttitudeFrame := by
  refine ⟨fun _ h => decodeWord_of_op_encAtt h, fun s => ⟨_, exec_encAtt s, rfl, ?_, ?_⟩⟩
  · rw [State.memRead_status_bit0]
    exact exec_frameValid (exec_encAtt s)
  · rw [State.toList_encodeFrame_fb s _ s.attitudePayload_length.le]
    rfl

end Sys2Proof.Machine
end

section
/-! SUPPORT. The control rules (43_control.md): NOP (R160) and the reserved opcodes (R161), what a read of each
register returns (R165), what a supported read and a supported register write do as a step, and the statements
about them (R160 to R163, R165). -/

namespace Sys2Proof

/-- R83: OP 0x00 is NOP. -/
theorem decodeWord_of_op_nop {w : Word} (h : opField w = 0x00#8) : decodeWord w = .nop := by
  rw [decodeWord, h]
  rfl

/-- R83's two ranges are the decoder's check for a reserved opcode. -/
theorem isReservedOp_iff_ranges (op : Byte) :
    isReservedOp op = true ↔ (0x04#8 ≤ op ∧ op ≤ 0x0F#8) ∨ 0x12#8 ≤ op := by
  simp only [isReservedOp, Bool.or_eq_true, Bool.and_eq_true, decide_eq_true_eq]

/-- R83: a word with a reserved OP is the reserved command of that OP. -/
theorem decodeWord_of_op_reserved {w : Word} (h : isReservedOp (opField w) = true) :
    decodeWord w = .reserved (opField w) :=
  Laws.decodeFields_reserved h _

end Sys2Proof

namespace Sys2Proof.Machine

/-! ### NOP and the reserved opcodes -/

theorem exec_nop (s : State) : exec .nop s = .next s := rfl

theorem exec_reserved (op : Byte) (s : State) : exec (.reserved op) s = .next (s.setErr true) := rfl

/-- Settles O11: OP 0x00 selects NOP, and `exec_nop`. -/
theorem nopChangesNothing : Obligations.NopChangesNothing :=
  ⟨fun _ h => decodeWord_of_op_nop h, exec_nop⟩

/-- Settles O20: R161's ranges are the reserved opcodes, and `exec_reserved`. -/
theorem reservedOpcodeSetsErrIllegal : Obligations.ReservedOpcodeSetsErrIllegal :=
  ⟨fun _ h => decodeWord_of_op_reserved ((isReservedOp_iff_ranges _).mpr h), fun op s _ => exec_reserved op s⟩

/-! ### What a read returns -/

/-- FRAMEi stands at offset 0x40 + 4i (R34). -/
theorem Reg.ofOffset_frame : ∀ i : Fin 9, Reg.ofOffset (BitVec.ofNat 8 (0x40 + 4 * i.val)) = .frame i := by
  decide

/-- The aligned offsets at which R34 places no register. -/
theorem Reg.ofOffset_eq_reserved {off : BitVec 8} (haligned : off.extractLsb' 0 2 = 0#2)
    (h : off = 0x1C#8 ∨ (0x30#8 ≤ off ∧ off ≤ 0x3C#8) ∨ 0x64#8 ≤ off) : Reg.ofOffset off = .reserved := by
  revert off
  decide

/-- STATUS is ERR_ILLEGAL in bit 1 and FRAME_VALID, which is `FRAME_LEN != 0`, in bit 0 (R28, R36). -/
theorem State.memRead_status (s : State) : s.memRead 0x04#8 =
    (if s.errIllegal then 2#32 else 0#32) + (if s.frameLen ≠ 0 then 1#32 else 0#32) := by
  have hview : s.memRead 0x04#8 = s.statusWord := rfl
  have hvalid : s.frameLen ≠ 0 ↔ s.frameValid = true := bne_iff_ne.symm
  rw [hview, State.statusWord]
  simp only [hvalid]
  cases s.errIllegal <;> cases s.frameValid <;> decide

/-- FRAMEi holds the buffer's bytes 4i to 4i+3, the first in the lowest lane (R46). -/
theorem State.memRead_frame (s : State) {i : Nat} (h : i < 9) :
    s.memRead (BitVec.ofNat 8 (0x40 + 4 * i)) =
      s.fb.byte (4 * i + 3) ++ s.fb.byte (4 * i + 2) ++ s.fb.byte (4 * i + 1) ++ s.fb.byte (4 * i) := by
  rw [State.memRead, Reg.ofOffset_frame ⟨i, h⟩]
  rfl

/-- A reserved offset reads 0 (R47). -/
theorem State.memRead_reserved (s : State) {off : BitVec 8} (h : Reg.ofOffset off = .reserved) :
    s.memRead off = 0 := by
  rw [State.memRead, h]
  rfl

/-! ### Reads and register writes as steps -/

/-- R165: a supported read returns the register's view, and no cell changes. -/
theorem step_read {s : State} {off : BitVec 8} {rest : List PortEvent} (haligned : off.extractLsb' 0 2 = 0#2)
    (hp : s.port = .access (.read 4 off) :: rest) :
    step s = .next ((s.accept rest).respond (s.memRead off)) := by
  have hsup : (Transaction.read 4 off).supported = true := by
    simp [Transaction.supported, Transaction.width, Transaction.off, haligned]
  rw [step_cons hp, takeEvent_read hsup]
  rfl

/-- A supported write to another register than CMD is that register's write. -/
theorem step_writeReg {s : State} {off : BitVec 8} {v : Word} {rest : List PortEvent}
    (haligned : off.extractLsb' 0 2 = 0#2) (hne : Reg.ofOffset off ≠ .cmd)
    (hp : s.port = .access (.write 4 off v) :: rest) :
    step s = .next ((s.accept rest).writeReg v (Reg.ofOffset off)) := by
  rw [step_cons hp, takeEvent_writeReg ((Transaction.supported_write_iff 4 off v).mpr ⟨rfl, haligned⟩) hne]

/-- R162, as one update of ERR_ILLEGAL: where bit 1 of the value is 0, the flag is set to what it is. -/
theorem State.writeStatus_eq_setErr (s : State) (v : Word) :
    s.writeStatus v = s.setErr (if v.getLsbD 1 then false else s.errIllegal) := by
  rw [State.writeStatus]
  cases v.getLsbD 1 <;> rfl

/-! ### The statements on reads and writes -/

/-- Settles O22: `step_read`, and the view of each register: STATUS, the frame words and the reserved offsets by
their lemmas, every other one a cell itself. -/
theorem readsReturnTheRegisterMap : Obligations.ReadsReturnTheRegisterMap := by
  refine ⟨fun s off rest haligned hp => step_read haligned hp, fun s => ?_⟩
  have hresult : s.memRead 0x0C#8 = BitVec.setWidth 32 (s.crcState ^^^ 0xFFFF#16) := by
    rw [State.memRead_crcResult, ← BitVec.xor_allOnes]
    rfl
  exact ⟨rfl, s.memRead_status, rfl, hresult, rfl, s.memRead_id, rfl, rfl, rfl, rfl, rfl,
    fun i hi => s.memRead_frame hi,
    fun off haligned h => s.memRead_reserved (Reg.ofOffset_eq_reserved haligned h)⟩

/-- Settles O23: the step is STATUS's register write, which is one update of ERR_ILLEGAL. -/
theorem statusWriteClearsErrIllegal : Obligations.StatusWriteClearsErrIllegal := by
  intro s v rest hp
  calc step s
    _ = .next ((s.accept rest).writeStatus v) := step_writeReg (by decide) (by decide) hp
    _ = .next ((s.accept rest).setErr (if v.getLsbD 1 then false else s.errIllegal)) := by
      rw [State.writeStatus_eq_setErr, State.accept_errIllegal]

/-- Settles O24: each of the four steps is its register's write, which stores the word. -/
theorem operandWritesStoreTheWord : Obligations.OperandWritesStoreTheWord := by
  intro s v rest
  exact ⟨step_writeReg (by decide) (by decide), step_writeReg (by decide) (by decide),
    step_writeReg (by decide) (by decide), step_writeReg (by decide) (by decide)⟩

end Sys2Proof.Machine
end

section
/-! SUPPORT. The state after reset (70_reset_and_hazards.md): what each register reads as (R251), and the sequence
byte of a frame, which for the first frame after reset is 1. -/

namespace Sys2Proof.Machine

/-! ### The sequence byte of a frame -/

/-- R130: byte 2 of a frame is its sequence byte. -/
theorem FrameBuf.byte_two_of_frame {fb : FrameBuf} {cfg : Config} {mid q : Byte} {payload after : List Byte}
    (h : fb.toList = frameBytes cfg mid q payload ++ after) : fb.byte 2 = q :=
  FrameBuf.byte_at_cut (xs := [0xFE#8, BitVec.ofNat 8 payload.length]) h rfl

/-- R120 and R135: a frame carries the counter's value after its advance. -/
theorem State.encodeFrame_fb_byte_two (s : State) (mid : Byte) {payload : List Byte}
    (h : payload.length ≤ 28) : (s.encodeFrame mid payload).fb.byte 2 = s.seq + 1 :=
  FrameBuf.byte_two_of_frame (s.toList_encodeFrame_fb mid h)

/-! ### The registers after reset -/

/-- Among the aligned offsets, 0x08 alone selects CRC_STATE (R34). -/
theorem Reg.ofOffset_eq_crcState_iff {off : BitVec 8} (h : off.extractLsb' 0 2 = 0#2) :
    Reg.ofOffset off = .crcState ↔ off = 0x08#8 := by
  revert off
  decide

/-- Among the aligned offsets, 0x14 alone selects ID (R34). -/
theorem Reg.ofOffset_eq_id_iff {off : BitVec 8} (h : off.extractLsb' 0 2 = 0#2) :
    Reg.ofOffset off = .id ↔ off = 0x14#8 := by
  revert off
  decide

theorem FrameBuf.byte_cleared (k : Nat) : FrameBuf.cleared.byte k = 0 := by
  rw [FrameBuf.byte, FrameBuf.toList_cleared, zeros, List.getD_eq_getElem?_getD,
    List.getElem?_getD_replicate_default_eq]

/-- FRAMEi packs bytes of a cleared buffer. -/
theorem State.frameWord_reset (i : Nat) : State.reset.frameWord i = 0 := by
  have hbyte (k : Nat) : State.reset.fb.byte k = 0 := FrameBuf.byte_cleared k
  simp only [State.frameWord, hbyte]
  decide

/-- R251, register by register. -/
theorem State.readReg_reset (r : Reg) : State.reset.readReg r =
    if r = .crcState then 0x0000FFFF#32 else if r = .id then 0x1E000101#32 else 0 := by
  cases r with
  | frame i => exact State.frameWord_reset i.val
  | _ => rfl

/-- R251, offset by offset. -/
theorem State.memRead_reset {off : BitVec 8} (h : off.extractLsb' 0 2 = 0#2) : State.reset.memRead off =
    if off = 0x08#8 then 0x0000FFFF#32 else if off = 0x14#8 then 0x1E000101#32 else 0 := by
  simp only [State.memRead, State.readReg_reset, Reg.ofOffset_eq_crcState_iff h, Reg.ofOffset_eq_id_iff h]

/-- Settles O3: a read step returns its register's view of the reset state, and a first frame's sequence byte is
the counter's reset value plus one. -/
theorem readsAfterResetAreTabulated : Obligations.ReadsAfterResetAreTabulated := by
  refine ⟨by decide, exec_crcInit State.reset,
    ⟨_, exec_encHb State.reset, ?_⟩, ⟨_, exec_encAtt State.reset, ?_⟩, fun off rest haligned => ?_⟩
  · exact State.encodeFrame_fb_byte_two _ _ (by rw [heartbeatPayload_length]; omega)
  · exact State.encodeFrame_fb_byte_two _ _ (State.attitudePayload_length _).le
  · rw [step_read haligned rfl, ← State.memRead_reset haligned]
    rfl

end Sys2Proof.Machine
end

section
/-! SUPPORT. The codec (30_encoding.md R81 to R86): decoding the bytes of a word, what an instruction's word is
in its three fields, and the statements about decoding and encoding. -/

namespace Sys2Proof

/-! ### Decoding the bytes of a word -/

/-- The four bytes of a word, in lane order, decode as the word does, and the bytes after them are left. -/
theorem decode_le32_append (w : Word) (rest : List Byte) :
    decode (Machine.le32 w ++ rest) = .ok (decodeWord w, rest) := by
  have hdecode : decode (Machine.le32 w ++ rest) = .ok (decodeWord
      (Machine.packLanes (Machine.lane w 0) (Machine.lane w 1) (Machine.lane w 2) (Machine.lane w 3)), rest) := rfl
  rw [hdecode, Machine.packLanes_lane]

theorem decode_le32 (w : Word) : decode (Machine.le32 w) = .ok (decodeWord w, []) :=
  decode_le32_append w []

/-- Settles O9: the bytes of an instruction's word decode as the word does, which is to the instruction. -/
theorem decodeOfEncodeIsTheCommand : Obligations.DecodeOfEncodeIsTheCommand := by
  intro i data8 rsvd rest hwf
  rw [decode_le32_append, decodeWord_encodeWith hwf]

/-! ### Encoding what was decoded -/

/-- R81: an instruction's word is made of the ignored high half, its operand or the ignored byte, and its
opcode. -/
theorem encodeWith_eq_commandWord (data8 : Byte) (rsvd : Half) (i : Instr) :
    encodeWith data8 rsvd i = commandWord rsvd (Laws.data8Of data8 i) i.opcode := by
  cases i <;> rfl

/-- Every opcode and data byte select a well-formed instruction that has them as its own (R83, R84). -/
theorem decodeFields_spec (op data8 : Byte) : (decodeFields op data8).wf = true ∧
    (decodeFields op data8).opcode = op ∧ Laws.data8Of data8 (decodeFields op data8) = data8 := by
  by_cases h : isReservedOp op = true
  · rw [Laws.decodeFields_reserved h]
    exact ⟨h, rfl, rfl⟩
  · obtain rfl | rfl | rfl | rfl | rfl | rfl := by
      rwa [Laws.isReservedOp_iff, not_not] at h
    all_goals exact ⟨rfl, rfl, rfl⟩

/-- Settles O10: the decoded instruction has the word's OP and DATA8 as its own, and a word is the word of its
three fields. -/
theorem encodeOfDecodeIsTheWord : Obligations.EncodeOfDecodeIsTheWord := by
  intro w
  obtain ⟨hwf, hop, hdata⟩ := decodeFields_spec (opField w) (data8Field w)
  refine ⟨hwf, ?_⟩
  rw [encodeWith_eq_commandWord, decodeWord, hop, hdata, Laws.commandWord_of_fields]

/-! ### The opcode map -/

/-- Settles O6: the decoder, evaluated on each of the words. -/
theorem writtenOutWordsDecode : Obligations.WrittenOutWordsDecode := by
  unfold Obligations.WrittenOutWordsDecode
  decide

/-- Settles O7: the map, opcode by opcode. -/
theorem opcodeMapAsTabulated : Obligations.OpcodeMapAsTabulated := fun _ =>
  ⟨decodeWord_of_op_nop, decodeWord_of_op_crcInit, decodeWord_of_op_crcByte, decodeWord_of_op_seqNext,
    decodeWord_of_op_encHb, decodeWord_of_op_encAtt,
    fun h => decodeWord_of_op_reserved ((isReservedOp_iff_ranges _).mpr h)⟩

/-! ### The delivered command -/

/-- Settles O5: the bytes of the word decode as the word does, and a write to CMD runs what its word decodes
to. -/
theorem stepRunsTheDeliveredCommand : Obligations.StepRunsTheDeliveredCommand := by
  intro s rest w i hp hi
  obtain ⟨rfl, -⟩ : decodeWord w = i ∧ ([] : List Byte) = [] := by
    simpa [decode_le32] using hi
  rw [Machine.step_cons hp]
  exact Machine.takeEvent_command rfl rfl _

end Sys2Proof
end

section
/-! SUPPORT. The checksum function (40_crc.md R100, R101): the byte-wide form of the step, that no step loses a
difference, and the run of the `crc16` program (30_encoding.md R88). -/

namespace Sys2Proof.Machine

/-- Settles O15: the complement is the XOR with 0xFFFF. -/
theorem crc16ComplementsTheFold : Obligations.Crc16ComplementsTheFold :=
  ⟨fun _ => BitVec.xor_allOnes.symm, by decide⟩

/-- Settles O16: the checksum function, evaluated on each of the vectors. -/
theorem crc16TestVectors : Obligations.Crc16TestVectors :=
  ⟨by decide +kernel, by decide, by decide, by decide, by decide +kernel⟩

/-! ### The table-driven step -/

theorem zextByte_hiByte (c : Half) : zextByte (hiByte c) = c >>> 8 := by
  rw [zextByte_eq_append]
  exact (BitVec.ushiftRight_eq_extractLsb'_of_lt (by decide)).symm

/-- Settles O47: `crcStep_append` on the register's own two bytes. -/
theorem bitSerialCrcIsTableDrivenCrc : Obligations.BitSerialCrcIsTableDrivenCrc := by
  intro c b
  have hlo : loByte c = BitVec.setWidth 8 c := BitVec.setWidth_eq_extractLsb' (by decide) |>.symm
  calc crcStep c b
    _ = crcStep (hiByte c ++ loByte c) b := by rw [hiByte_append_loByte]
    _ = c >>> 8 ^^^ crcStep 0#16 (BitVec.setWidth 8 c ^^^ b) := by
      rw [crcStep_append, zextByte_hiByte, hlo]

/-! ### No difference is lost -/

/-- The bit that a pass shifts out is the top bit it leaves: the polynomial has bit 15 set, and the shift
clears it. -/
theorem crcShift_getLsbD_15 (r : Half) : (crcShift r).getLsbD 15 = r.getLsbD 0 := by
  have hshift : (r >>> 1).getLsbD 15 = false := by
    rw [BitVec.getLsbD_ushiftRight]
    exact BitVec.getLsbD_of_ge r 16 le_rfl
  have hpoly : Config.crcPoly.getLsbD 15 = true := by decide
  rw [crcShift]
  split
  next h => rw [BitVec.getLsbD_xor, hshift, hpoly, h, Bool.false_xor]
  next h => rw [hshift, Bool.eq_false_of_not_eq_true h]

/-- A register is its bit 0 and what a shift leaves of it. -/
theorem eq_of_ushiftRight_one_eq {a b : Half} (h0 : a.getLsbD 0 = b.getLsbD 0) (h : a >>> 1 = b >>> 1) :
    a = b := by
  refine BitVec.eq_of_getLsbD_eq fun i _ => ?_
  cases i with
  | zero => exact h0
  | succ i =>
    have hi := congrArg (·.getLsbD i) h
    simpa [BitVec.getLsbD_ushiftRight, Nat.add_comm] using hi

theorem crcShift_injective : Function.Injective crcShift := by
  intro a b h
  have h0 : a.getLsbD 0 = b.getLsbD 0 := by
    rw [← crcShift_getLsbD_15, h, crcShift_getLsbD_15]
  refine eq_of_ushiftRight_one_eq h0 ?_
  rw [crcShift, crcShift, h0] at h
  split at h
  · exact (BitVec.xor_left_inj _).mp h
  · exact h

theorem crcShifts_injective (n : Nat) : Function.Injective (crcShifts n) := by
  rw [funext (crcShifts_eq_iterate n)]
  exact crcShift_injective.iterate n

theorem zextByte_injective : Function.Injective zextByte := by
  intro a b h
  rw [zextByte_eq_append, zextByte_eq_append] at h
  exact BitVec.append_right_inj _ |>.mp h

theorem crcStep_injective_register (b : Byte) : Function.Injective fun c => crcStep c b :=
  fun _ _ h => (BitVec.xor_left_inj _).mp (crcShifts_injective 8 h)

theorem crcStep_injective_byte (c : Half) : Function.Injective (crcStep c) :=
  fun _ _ h => zextByte_injective ((BitVec.xor_right_inj _).mp (crcShifts_injective 8 h))

theorem crcFold_injective_register : ∀ bs : List Byte, Function.Injective fun c => crcFold c bs
  | [] => Function.injective_id
  | b :: bs => (crcFold_injective_register bs).comp (crcStep_injective_register b)

/-- Settles O48: the changed byte's step leaves different registers, and no later step makes them equal. -/
theorem changedByteChangesTheChecksum : Obligations.ChangedByteChangesTheChecksum := by
  intro xs ys b b' hne h
  have hfold : crcFold (crcStep (crcFold Config.crcInit xs) b) ys =
      crcFold (crcStep (crcFold Config.crcInit xs) b') ys := by
    simpa [crc16] using h
  exact hne (crcStep_injective_byte _ (crcFold_injective_register ys hfold))

/-! ### The `crc16` program -/

/-- Settles O44: CRC_INIT and the bytes leave their fold, whose complement the read of CRC_RESULT returns. -/
theorem crc16ProgramReturnsTheChecksum : Obligations.Crc16ProgramReturnsTheChecksum := by
  intro s bs hp
  have hfold : ~~~ crc16 bs = crcFold 0xFFFF#16 bs := BitVec.not_not
  have hp' : s.port = programEvents (command .crcInit :: crcBytesProgram bs) ++
      [.access (memReadAt 0x0C#8)] := by
    rw [hp, crc16Program, programEvents, programEvents, ← List.cons_append, List.map_append]
    rfl
  rw [runFor_crcInit_crcBytesProgram hp' 1, runFor_succ (step_read (by decide) rfl), runFor_zero,
    State.memRead_crcResult, hfold]
  rfl

end Sys2Proof.Machine
end

section
/-! SUPPORT. Register writes (43_control.md R162 to R164): the offset that selects each register (10_state.md R34),
what a write of each register changes, once and twice, and the statement about the operand cells (10_state.md
R23, R26). -/

namespace Sys2Proof.Machine

/-! ### The register at an offset -/

/-- A register is selected by the offset at which R34 places it. -/
theorem Reg.ofOffset_offset (r : Reg) : Reg.ofOffset r.offset = r := by
  cases r with
  | frame i => revert i; decide
  | _ => rfl

/-- An aligned offset that selects a register is the one at which R34 places it. -/
theorem Reg.offset_ofOffset {off : BitVec 8} (haligned : off.extractLsb' 0 2 = 0#2)
    (h : Reg.ofOffset off ≠ .reserved) : (Reg.ofOffset off).offset = off := by
  revert off
  decide

/-- Among the aligned offsets, a register's own alone selects it (R34). -/
theorem Reg.ofOffset_eq_iff {off : BitVec 8} (haligned : off.extractLsb' 0 2 = 0#2) {r : Reg}
    (hr : r ≠ .reserved) : Reg.ofOffset off = r ↔ off = r.offset := by
  constructor
  · rintro rfl
    exact (Reg.offset_ofOffset haligned hr).symm
  · rintro rfl
    exact r.ofOffset_offset

/-! ### What a register write changes -/

/-- The registers with storage that a write reaches: STATUS and the four operands (R162, R163). -/
def Reg.isWritable : Reg → Bool
  | .status | .timeBootMs | .roll | .pitch | .yaw => true
  | _ => false

/-- R164: a write to another register changes nothing. -/
theorem State.writeReg_of_not_isWritable {r : Reg} (h : r.isWritable = false) (s : State) (v : Word) :
    s.writeReg v r = s := by
  cases r with
  | status | timeBootMs | roll | pitch | yaw => cases h
  | _ => rfl

@[simp] theorem State.writeReg_fb (s : State) (v : Word) (r : Reg) : (s.writeReg v r).fb = s.fb := by
  obtain ⟨-, -, h, -⟩ := s.writeReg_frame v r
  exact h

@[simp] theorem State.writeReg_port (s : State) (v : Word) (r : Reg) : (s.writeReg v r).port = s.port := by
  obtain ⟨-, -, -, -, -, h, -⟩ := s.writeReg_frame v r
  exact h

/-- R163: of the register writes, an operand's own alone changes its cell, to the word written. -/
theorem State.writeReg_operands (s : State) (v : Word) (r : Reg) :
    (s.writeReg v r).timeBootMs = (if r = .timeBootMs then v else s.timeBootMs) ∧
    (s.writeReg v r).roll = (if r = .roll then v else s.roll) ∧
    (s.writeReg v r).pitch = (if r = .pitch then v else s.pitch) ∧
    (s.writeReg v r).yaw = (if r = .yaw then v else s.yaw) := by
  cases r with
  | status =>
    have hstatus : s.writeReg v .status = s.setErr (if v.getLsbD 1 then false else s.errIllegal) :=
      s.writeStatus_eq_setErr v
    rw [hstatus]
    exact ⟨rfl, rfl, rfl, rfl⟩
  | _ => exact ⟨rfl, rfl, rfl, rfl⟩

/-- R164's offsets: the read-only registers and the reserved offsets. -/
theorem Reg.ofOffset_ignored {off : BitVec 8} (haligned : off.extractLsb' 0 2 = 0#2)
    (h : off = 0x08#8 ∨ off = 0x0C#8 ∨ off = 0x10#8 ∨ off = 0x14#8 ∨ off = 0x18#8 ∨ off = 0x1C#8 ∨
      (0x30#8 ≤ off ∧ off ≤ 0x3C#8) ∨ 0x40#8 ≤ off) :
    Reg.ofOffset off ≠ .cmd ∧ (Reg.ofOffset off).isWritable = false := by
  revert off
  decide

/-- Settles O25: such an offset selects a register that no write changes. -/
theorem writesToOtherOffsetsAreIgnored : Obligations.WritesToOtherOffsetsAreIgnored := by
  intro s off v rest haligned h hp
  obtain ⟨hne, hro⟩ := Reg.ofOffset_ignored haligned h
  rw [step_writeReg haligned hne hp, State.writeReg_of_not_isWritable hro]
  rfl

/-! ### Writing twice -/

/-- A register write and the port's handing over of an event do not disturb each other. -/
theorem State.accept_writeReg (s : State) (v : Word) (r : Reg) (rest : List PortEvent) :
    (s.writeReg v r).accept rest = (s.accept rest).writeReg v r := by
  cases r with
  | status =>
    simp only [State.writeReg, State.writeStatus_eq_setErr]
    rfl
  | _ => rfl

/-- The second of two equal writes changes nothing (20_memory.md section 4). -/
theorem State.writeReg_writeReg (s : State) (v : Word) (r : Reg) :
    (s.writeReg v r).writeReg v r = s.writeReg v r := by
  cases r with
  | status =>
    simp only [State.writeReg, State.writeStatus]
    cases v.getLsbD 1 <;> rfl
  | _ => rfl

/-- Settles O28: each write is a step, and the second finds its register as it leaves it. -/
theorem statusAndOperandWritesAreIdempotent : Obligations.StatusAndOperandWritesAreIdempotent := by
  intro s off v hoff
  obtain ⟨haligned, hne⟩ : off.extractLsb' 0 2 = 0#2 ∧ Reg.ofOffset off ≠ .cmd := by
    obtain rfl | rfl | rfl | rfl | rfl := hoff <;> decide
  have hfirst : step { s with port := [.access (.write 4 off v), .access (.write 4 off v)] } =
      .next ((s.accept [.access (.write 4 off v)]).writeReg v (Reg.ofOffset off)) :=
    step_writeReg haligned hne rfl
  have hsecond : step ((s.accept [.access (.write 4 off v)]).writeReg v (Reg.ofOffset off)) =
      .next ((s.accept []).writeReg v (Reg.ofOffset off)) := by
    rw [step_writeReg haligned hne (State.writeReg_port ..), State.accept_writeReg, State.writeReg_writeReg]
    rfl
  exact ⟨_, runFor_succ (step_writeReg haligned hne rfl) 0,
    (runFor_succ hfirst 1).trans (runFor_succ hsecond 0)⟩

/-! ### The operand cells -/

/-- No command changes an operand cell (R23, R26). -/
theorem exec_operands {i : Instr} {s t : State} (h : exec i s = .next t) :
    t.timeBootMs = s.timeBootMs ∧ t.roll = s.roll ∧ t.pitch = s.pitch ∧ t.yaw = s.yaw := by
  obtain ⟨u, hu, -, -, -, -, htime, hroll, hpitch, hyaw, -⟩ := exec_next i s
  cases hu.symm.trans h
  exact ⟨htime, hroll, hpitch, hyaw⟩

/-- Settles O33, by the cases of a step: a command changes none of the cells, and a register write the one whose
own offset it is. -/
theorem operandCellsChangeOnlyByTheirWrites : Obligations.OperandCellsChangeOnlyByTheirWrites := by
  intro s t h
  obtain ⟨hp, rfl⟩ | ⟨lost, rest, hp, rfl⟩ | ⟨n, off, rest, hp, rfl⟩ | ⟨w, rest, hp, hexec⟩ |
    ⟨off, v, rest, hp, haligned, -, rfl⟩ := step_cases h
  · simp only [hp, and_self]
  · rw [hp]
    exact ⟨rfl, rfl, rfl, rfl⟩
  · rw [hp]
    exact ⟨rfl, rfl, rfl, rfl⟩
  · have hkept := exec_operands hexec
    rw [hp]
    exact hkept
  · have hwrite := (s.accept rest).writeReg_operands v (Reg.ofOffset off)
    simp only [Reg.ofOffset_eq_iff haligned (r := .timeBootMs) nofun,
      Reg.ofOffset_eq_iff haligned (r := .roll) nofun, Reg.ofOffset_eq_iff haligned (r := .pitch) nofun,
      Reg.ofOffset_eq_iff haligned (r := .yaw) nofun] at hwrite
    rw [hp]
    exact hwrite

end Sys2Proof.Machine
end

section
/-! SUPPORT. The frame buffer over a step (10_state.md R24, R25): only the two encoders and reset touch it, and each
of them leaves it empty or with a whole frame and its checksum (42_frame.md R130, R132). -/

namespace Sys2Proof.Machine

/-! ### What leaves the buffer alone -/

/-- A command other than the two encoders leaves FB and FRAME_LEN as they were. -/
theorem exec_keeps_frame {i : Instr} {s t : State} (h : exec i s = .next t) (hhb : i ≠ .encHb)
    (hatt : i ≠ .encAtt) : t.fb = s.fb ∧ t.frameLen = s.frameLen := by
  obtain ⟨u, hu, -, -, hframe, -⟩ := exec_next i s
  cases hu.symm.trans h
  exact hframe hhb hatt

/-- A step that is neither a reset nor an encode command leaves FB and FRAME_LEN as they were (R24, R25). -/
theorem step_keeps_frame {s t : State} (h : step s = .next t)
    (hother : ∀ e rest, s.port = e :: rest →
      e.isAccess = true ∧ e.command? ≠ some .encHb ∧ e.command? ≠ some .encAtt) :
    t.fb = s.fb ∧ t.frameLen = s.frameLen := by
  obtain ⟨-, rfl⟩ | ⟨lost, rest, hp, rfl⟩ | ⟨n, off, rest, -, rfl⟩ | ⟨w, rest, hp, hexec⟩ |
    ⟨off, v, rest, -, -, -, rfl⟩ := step_cases h
  · exact ⟨rfl, rfl⟩
  · obtain ⟨haccess, -⟩ := hother _ _ hp
    cases haccess
  · exact ⟨rfl, rfl⟩
  · obtain ⟨-, hhb, hatt⟩ := hother _ _ hp
    rw [PortEvent.command?_write_cmd] at hhb hatt
    have hkept := exec_keeps_frame hexec (mt (congrArg some) hhb) (mt (congrArg some) hatt)
    exact hkept
  · exact ⟨State.writeReg_fb .., State.writeReg_frameLen ..⟩

/-- Settles O31: `step_keeps_frame`, and equal buffers have equal bytes. -/
theorem frameBufferChangesOnlyByEncoding : Obligations.FrameBufferChangesOnlyByEncoding := by
  intro s t h hother
  obtain ⟨hfb, hlen⟩ := step_keeps_frame h hother
  exact ⟨fun k => by rw [hfb], hfb, hlen⟩

/-! ### The frame invariant -/

/-- The invariant speaks of FB, FRAME_LEN and the configuration alone. -/
theorem FrameInv.congr {s t : State} (h : FrameInv s) (hfb : t.fb = s.fb) (hlen : t.frameLen = s.frameLen)
    (hcfg : t.config = s.config) : FrameInv t := by
  rwa [FrameInv, hfb, hlen, hcfg]

/-- Cleared cells hold no frame (R250). -/
theorem frameInv_resetCells (s : State) : FrameInv s.resetCells := .inl ⟨rfl, FrameBuf.toList_cleared⟩

/-- ENC_HB leaves a heartbeat, with the advanced SEQ as its sequence byte (R136). -/
theorem frameInv_encHb {s t : State} (h : exec .encHb s = .next t) : FrameInv t := by
  cases (exec_encHb s).symm.trans h
  exact .inr (.inl ⟨rfl, s.seq + 1, s.toList_encodeFrame_fb _ (by rw [heartbeatPayload_length]; omega)⟩)

/-- ENC_ATT leaves an attitude frame over the operand cells, with the advanced SEQ as its sequence byte
(R137). -/
theorem frameInv_encAtt {s t : State} (h : exec .encAtt s = .next t) : FrameInv t := by
  cases (exec_encAtt s).symm.trans h
  refine .inr (.inr ⟨rfl, s.seq + 1, s.timeBootMs, s.roll, s.pitch, s.yaw, ?_⟩)
  rw [s.toList_encodeFrame_fb _ s.attitudePayload_length.le, s.attitudePayload_length]
  exact List.append_nil _

/-- Every command keeps the invariant: the encoders leave a frame, and the others leave FB alone. -/
theorem frameInv_exec {i : Instr} {s t : State} (hinv : FrameInv s) (h : exec i s = .next t) :
    FrameInv t := by
  cases i with
  | encHb => exact frameInv_encHb h
  | encAtt => exact frameInv_encAtt h
  | _ =>
    obtain ⟨hfb, hlen⟩ := exec_keeps_frame h nofun nofun
    exact hinv.congr hfb hlen (exec_config h)

/-- Settles O37, by the cases of a step: a reset clears the buffer, and of the others only a command can touch
it. -/
theorem everyStepKeepsTheFrameInvariant : Obligations.EveryStepKeepsTheFrameInvariant := by
  intro s t hinv h
  obtain ⟨-, rfl⟩ | ⟨lost, rest, -, rfl⟩ | ⟨n, off, rest, -, rfl⟩ | ⟨w, rest, -, hexec⟩ |
    ⟨off, v, rest, -, -, -, rfl⟩ := step_cases h
  · exact hinv
  · exact frameInv_resetCells _
  · exact hinv.congr rfl rfl rfl
  · exact frameInv_exec (hinv.congr (t := s.accept rest) rfl rfl rfl) hexec
  · exact hinv.congr (State.writeReg_fb ..) (State.writeReg_frameLen ..) (State.writeReg_config ..)

/-- Settles O36: the state after reset has cleared cells. -/
theorem frameInvariantAtReset : Obligations.FrameInvariantAtReset := frameInv_resetCells State.reset

end Sys2Proof.Machine
end

section
/-! SUPPORT. Events at the port: which ones a step takes and which it refuses (20_memory.md R53), that a step does
not depend on the events behind its own (R62) nor on the data word last returned (10_state.md R20), and that a port
of supported events is emptied. -/

namespace Sys2Proof.Machine

/-! ### Reset -/

/-- Settles O1: the reset state, cell by cell. -/
theorem resetStateHoldsTheTableValues : Obligations.ResetStateHoldsTheTableValues :=
  ⟨rfl, rfl, rfl, rfl, rfl, fun k _ => FrameBuf.byte_cleared k, FrameBuf.toList_length _, rfl, rfl, rfl, rfl, rfl,
    rfl, rfl⟩

/-- Settles O2: the step is `resetCells`, whatever transaction came with the reset. -/
theorem resetEventRestoresEveryCell : Obligations.ResetEventRestoresEveryCell := by
  intro s lost rest hp
  exact ⟨(s.accept rest).resetCells, step_cons hp, rfl, rfl, rfl, rfl, rfl, FrameBuf.toList_cleared, rfl, rfl,
    rfl, rfl, rfl⟩

/-! ### Which events have a step -/

/-- R53's check, field by field. -/
theorem Transaction.supported_iff (t : Transaction) :
    t.supported = true ↔ t.width = 4 ∧ t.off.extractLsb' 0 2 = 0#2 := by
  simp [Transaction.supported]

/-- A step on a transaction that R53's check refuses is refused under its width and offset. -/
theorem step_unsupported {s : State} {tr : Transaction} {rest : List PortEvent}
    (h : tr.width ≠ 4 ∨ tr.off.extractLsb' 0 2 ≠ 0#2) (hp : s.port = .access tr :: rest) :
    step s = .refused (.unsupportedAccess tr.width tr.off) := by
  have hsup : tr.supported = false := by
    rwa [← Bool.not_eq_true, Transaction.supported_iff, not_and_or]
  rw [step_cons hp, takeEvent_unsupported hsup]

/-- Settles O4: such a step is the first arm of the step function. -/
theorem emptyPortChangesNothing : Obligations.EmptyPortChangesNothing := fun _ => step_nil

/-- Settles O26: `step_unsupported` for a read and for a write. -/
theorem otherAccessesAreRefused : Obligations.OtherAccessesAreRefused :=
  fun _ n off v _ h =>
    ⟨step_unsupported (tr := .read n off) h, step_unsupported (tr := .write n off v) h⟩

/-- Settles O27: such an event is a supported one, which `step_supported` takes. -/
theorem everySupportedEventCompletes : Obligations.EverySupportedEventCompletes := by
  intro s e rest hp hread hwrite
  refine step_supported hp ?_
  match e with
  | .reset _ => rfl
  | .access (.read n off) => exact (Transaction.supported_iff _).mpr (hread n off rfl)
  | .access (.write n off v) => exact (Transaction.supported_iff _).mpr (hwrite n off v rfl)

/-- Settles O38, by induction on the port: each supported event is consumed by its step. -/
theorem supportedPortIsDrained : Obligations.SupportedPortIsDrained := by
  intro s
  generalize hp : s.port = es
  induction es generalizing s with
  | nil => exact fun _ => ⟨s, rfl, hp⟩
  | cons e es ih =>
    intro h
    obtain ⟨he, hes⟩ : e.supported = true ∧ es.all PortEvent.supported = true := by
      simpa only [List.all_cons, Bool.and_eq_true] using h
    obtain ⟨u, hu, hport⟩ := step_supported hp he
    obtain ⟨t, ht, hempty⟩ := ih u hport hes
    exact ⟨t, (runFor_succ hu es.length).trans ht, hempty⟩

/-- Settles O40: when an event is taken, the response is cleared first. -/
theorem lastResponseIsNoState : Obligations.LastResponseIsNoState := by
  intro s e rest r hp
  rw [step_cons hp, step_cons (s := { s with response := r }) hp]
  rfl

/-! ### The events behind the one taken -/

/-- The same state with other events at the port. -/
def State.withPort (s : State) (es : List PortEvent) : State := { s with port := es }

theorem State.withPort_port (s : State) : s.withPort s.port = s := rfl

theorem State.readReg_withPort (s : State) (es : List PortEvent) (r : Reg) :
    (s.withPort es).readReg r = s.readReg r := by
  cases r <;> rfl

theorem State.writeReg_withPort (s : State) (es : List PortEvent) (v : Word) (r : Reg) :
    (s.withPort es).writeReg v r = (s.writeReg v r).withPort es := by
  cases r with
  | status =>
    simp only [State.writeReg, State.writeStatus_eq_setErr]
    rfl
  | _ => rfl

/-- No command reads or writes the port. -/
theorem exec_withPort {i : Instr} {s t : State} (h : exec i s = .next t) (es : List PortEvent) :
    exec i (s.withPort es) = .next (t.withPort es) := by
  cases i <;> cases h <;> rfl

/-- What an event does is the same whatever stands at the port behind it (R62). -/
theorem takeEvent_withPort {e : PortEvent} {s t : State} (h : takeEvent e s = .next t)
    (es : List PortEvent) : takeEvent e (s.withPort es) = .next (t.withPort es) := by
  obtain ⟨lost, rfl, rfl⟩ | ⟨n, off, rfl, hsup, -, rfl⟩ | ⟨i, -, -, hcmd, hexec⟩ |
    ⟨n, off, v, rfl, hsup, hne, -, rfl⟩ := takeEvent_cases h
  · rfl
  · rw [takeEvent_read hsup, State.memRead, State.readReg_withPort]
    rfl
  · obtain ⟨w, rfl, rfl⟩ := PortEvent.command?_eq_some hcmd
    rw [takeEvent_command rfl rfl]
    exact exec_withPort hexec es
  · rw [takeEvent_writeReg hsup hne, State.writeReg_withPort]

/-- An event does not touch the port it was taken from. -/
theorem takeEvent_port {e : PortEvent} {s t : State} (h : takeEvent e s = .next t) : t.port = s.port := by
  have hsame := takeEvent_withPort h s.port
  rw [State.withPort_port, h] at hsame
  exact congrArg (·.port) (Host.Outcome.next.inj hsame)

/-- A step on the event at the head of the port leaves what stands behind it, and is otherwise the same whatever
that is. -/
theorem step_withPort_cons {s u : State} {e : PortEvent} {p : List PortEvent}
    (h : step (s.withPort (e :: p)) = .next u) (q : List PortEvent) :
    u.port = p ∧ step (s.withPort (e :: (p ++ q))) = .next (u.withPort (p ++ q)) := by
  have htake : takeEvent e (s.accept p) = .next u := h
  exact ⟨takeEvent_port htake, takeEvent_withPort htake (p ++ q)⟩

/-- The run over the events `p` is the same with further events behind them. -/
theorem runFor_withPort_append (q : List PortEvent) : ∀ (p : List PortEvent) (s t : State),
    runFor p.length (s.withPort p) = .next t →
      runFor p.length (s.withPort (p ++ q)) = .next (t.withPort q)
  | [], s, t, h => by
    cases h
    rfl
  | e :: p, s, t, h => by
    cases hstep : step (s.withPort (e :: p)) with
    | next u =>
      obtain ⟨hport, hstep'⟩ := step_withPort_cons hstep q
      have hu : u.withPort p = u := by rw [← hport, State.withPort_port]
      rw [List.length_cons, runFor_succ hstep, ← hu] at h
      exact (runFor_succ hstep' p.length).trans (runFor_withPort_append q p u t h)
    | fault r => simp [runFor, hstep] at h
    | refused r => simp [runFor, hstep] at h

/-- Settles O39, by induction on the accepted events: each one's step does what it does with others behind it. -/
theorem laterEventsDoNotReachBack : Obligations.LaterEventsDoNotReachBack :=
  fun s t p q h => runFor_withPort_append q p s t h

end Sys2Proof.Machine
end

section
/-! SUPPORT. The host's side: the words of the mnemonics (30_encoding.md R87, R88), and the `enc.att.set` and
`frame.read` programs as runs. -/

namespace Sys2Proof.Machine

/-! ### The mnemonics -/

/-- A command word as a number: its fields by their weights (R81). -/
theorem commandWord_toNat (rsvd : Half) (data8 op : Byte) :
    (commandWord rsvd data8 op).toNat = (rsvd.toNat * 256 + data8.toNat) * 256 + op.toNat := by
  rw [commandWord, BitVec.toNat_append, BitVec.toNat_append, ← Nat.shiftLeft_add_eq_or_of_lt op.isLt,
    ← Nat.shiftLeft_add_eq_or_of_lt data8.isLt, Nat.shiftLeft_eq, Nat.shiftLeft_eq]

/-- CRC_BYTE's word with the ignored bits 0, as a number (R81, R83). -/
theorem encode_crcByte {n : Nat} (h : n < 256) :
    encode (.crcByte (BitVec.ofNat 8 n)) = BitVec.ofNat 32 (n * 256 + 2) := by
  have hfields : encode (.crcByte (BitVec.ofNat 8 n)) = commandWord 0#16 (BitVec.ofNat 8 n) 0x02#8 := rfl
  apply BitVec.eq_of_toNat_eq
  rw [hfields, commandWord_toNat]
  simp only [BitVec.toNat_ofNat]
  omega

theorem assemble_crcByte_of_lt {n : Nat} (h : n < 256) :
    (Stmt.crcByte n).assemble = .ok [command (.crcByte (BitVec.ofNat 8 n))] := by
  have himm : immediate 8 n = .ok (BitVec.ofNat 8 n) := if_pos h
  rw [Stmt.assemble, himm]
  rfl

theorem assemble_crcByte_of_le {n : Nat} (h : 256 ≤ n) :
    (Stmt.crcByte n).assemble = .error .outOfRange := by
  have himm : immediate 8 n = .error .outOfRange := if_neg (Nat.not_lt.mpr h)
  rw [Stmt.assemble, himm]
  rfl

/-- Settles O49: the fixed words by evaluation, and CRC_BYTE's for every immediate. -/
theorem mnemonicsAssembleToTheirWords : Obligations.MnemonicsAssembleToTheirWords := by
  refine ⟨rfl, rfl, fun n h => ?_, fun n h => assemble_crcByte_of_le h, rfl, rfl, rfl⟩
  rw [assemble_crcByte_of_lt h, command, encode_crcByte h]
  rfl

/-! ### `enc.att.set` -/

/-- The four operand writes at the head of the port leave their words in the operand cells. -/
theorem runFor_operandWrites {s : State} {t r p y : Word} {rest : List PortEvent}
    (hp : s.port = programEvents [memWrite Reg.timeBootMs.offset t, memWrite Reg.roll.offset r,
      memWrite Reg.pitch.offset p, memWrite Reg.yaw.offset y] ++ rest) (k : Nat) :
    runFor (k + 4) s = runFor k
      ({ s.accept rest with timeBootMs := t, roll := r, pitch := p, yaw := y }) := by
  rw [runFor_succ (step_writeReg (by decide) (by decide) hp),
    runFor_succ (step_writeReg (by decide) (by decide) rfl),
    runFor_succ (step_writeReg (by decide) (by decide) rfl),
    runFor_succ (step_writeReg (by decide) (by decide) rfl)]
  rfl

/-- Settles O45: after the four writes the operands stand in their cells, where ENC_ATT takes them from. -/
theorem encAttSetProgramEncodesItsOperands : Obligations.EncAttSetProgramEncodesItsOperands := by
  intro s t r p y hp
  have hwrites := runFor_operandWrites (rest := [.access (command .encAtt)]) hp 1
  refine ⟨_, hwrites.trans (runFor_succ ((step_command rfl rfl).trans (exec_encAtt _)) 0), rfl, ?_⟩
  exact (State.toList_encodeFrame_fb _ _ (State.attitudePayload_length _).le).trans (List.append_nil _)

/-! ### Programs of reads -/

/-- A port of aligned reads: each changes no cell, so they return the registers at their offsets as they stand at
the start, in order. -/
theorem reads_of_readProgram : ∀ (offs : List (BitVec 8)) (s : State),
    (∀ off ∈ offs, off.extractLsb' 0 2 = 0#2) → s.port = programEvents (offs.map memReadAt) →
      readsOf offs.length s = offs.map s.memRead ∧
      ∃ t, runFor offs.length s = .next t ∧ t.toCells = s.toCells ∧ t.config = s.config ∧ t.port = []
  | [], s, _, hp => ⟨rfl, s, rfl, rfl, rfl, hp⟩
  | off :: offs, s, h, hp => by
    obtain ⟨haligned, hrest⟩ := List.forall_mem_cons.mp h
    have hstep : step s = .next ((s.accept (programEvents (offs.map memReadAt))).respond (s.memRead off)) :=
      step_read haligned hp
    obtain ⟨hreads, t, ht, hcells, hcfg, hport⟩ := reads_of_readProgram offs
      ((s.accept (programEvents (offs.map memReadAt))).respond (s.memRead off)) hrest rfl
    refine ⟨?_, t, (runFor_succ hstep _).trans ht, hcells, hcfg, hport⟩
    rw [List.length_cons, readsOf, hstep]
    simp only [hreads, List.map_cons]
    rfl

/-! ### `frame.read` -/

/-- The buffer's bytes by their indices (R24). -/
theorem FrameBuf.map_byte_range (fb : FrameBuf) : (List.range 36).map fb.byte = fb.toList := by
  refine List.ext_getElem (by simp) fun k _ hk => ?_
  rw [List.getElem_map, List.getElem_range, FrameBuf.byte, List.getD_eq_getElem _ _ hk]

/-- FRAMEi's four lanes are the bytes 4i to 4i+3 (R46). -/
theorem State.le32_frameWord (s : State) (i : Nat) :
    le32 (s.frameWord i) = [4 * i, 4 * i + 1, 4 * i + 2, 4 * i + 3].map s.fb.byte :=
  le32_packLanes _ _ _ _

/-- A word's bytes, least significant first, are its four lanes (R12, R56). -/
theorem extractBytes_eq_le32 : (fun v : Word =>
    [v.extractLsb' 0 8, v.extractLsb' 8 8, v.extractLsb' 16 8, v.extractLsb' 24 8]) = le32 := rfl

/-- The lanes of FRAME0 to FRAME8 are the buffer, byte by byte. -/
theorem State.flatMap_le32_frameWord (s : State) :
    ((List.finRange 9).map fun i => s.frameWord i.val).flatMap le32 = s.fb.toList := by
  have hindices : (List.finRange 9).flatMap (fun i => [4 * i.val, 4 * i.val + 1, 4 * i.val + 2, 4 * i.val + 3]) =
      List.range 36 := by decide
  simp only [List.flatMap_map, State.le32_frameWord]
  rw [← List.map_flatMap, hindices, FrameBuf.map_byte_range]

/-- The offsets that `frame.read` reads: FRAME_LEN's, and FRAME0's to FRAME8's (R88). -/
def frameReadOffsets : List (BitVec 8) :=
  Reg.frameLen.offset :: (List.finRange 9).map fun i => (Reg.frame i).offset

theorem frameReadProgram_eq_map : frameReadProgram = frameReadOffsets.map memReadAt := by
  rw [frameReadProgram, frameReadOffsets, List.map_cons, List.map_map]
  rfl

theorem frameReadOffsets_length : frameReadOffsets.length = 10 := by
  rw [frameReadOffsets, List.length_cons, List.length_map, List.length_finRange]

/-- A read at a register's own offset returns the register. -/
theorem State.memRead_offset (s : State) (r : Reg) : s.memRead r.offset = s.readReg r := by
  rw [State.memRead, Reg.ofOffset_offset]

theorem State.map_memRead_frameReadOffsets (s : State) : frameReadOffsets.map s.memRead =
    BitVec.setWidth 32 s.frameLen :: (List.finRange 9).map fun i => s.frameWord i.val := by
  simp only [frameReadOffsets, List.map_cons, List.map_map, Function.comp_def, State.memRead_offset]
  rfl

/-- Settles O46: the program is ten aligned reads, and FRAME0 to FRAME8 hold the buffer lane by lane. -/
theorem frameReadProgramReturnsTheBuffer : Obligations.FrameReadProgramReturnsTheBuffer := by
  intro s hp
  have haligned : ∀ off ∈ frameReadOffsets, off.extractLsb' 0 2 = 0#2 := by decide
  obtain ⟨hreads, hrun⟩ := reads_of_readProgram frameReadOffsets s haligned
    (by rw [hp, frameReadProgram_eq_map])
  rw [frameReadOffsets_length] at hreads hrun
  refine ⟨⟨(List.finRange 9).map fun i => s.frameWord i.val, ?_, ?_, ?_⟩, hrun⟩
  · rw [hreads, State.map_memRead_frameReadOffsets]
  · rw [List.length_map, List.length_finRange]
  · rw [extractBytes_eq_le32, State.flatMap_le32_frameWord]

end Sys2Proof.Machine
end

section
/-! SUPPORT. The platform's address decode (20_memory.md R52). -/

namespace Sys2Proof.Machine

/-- R52: inside the window the offset is the distance from the base, and outside there is none. -/
theorem route_eq_some_iff (base addr : Nat) (off : BitVec 8) :
    route base addr = some off ↔ addr = base + off.toNat := by
  have hlt := off.isLt
  simp only [route, Config.windowSize, Option.ite_none_right_eq_some, Option.some.injEq,
    ← BitVec.toNat_inj, BitVec.toNat_ofNat]
  omega

theorem route_outside {base addr : Nat} (h : addr < base ∨ base + 256 ≤ addr) : route base addr = none :=
  if_neg (by simp only [Config.windowSize]; omega)

/-- An access that is routed nowhere leaves the state and its port as they are (R52). -/
theorem State.issue_of_unrouted (s : State) {base : Nat} {a : BusAccess} (h : a.transaction? base = none) :
    s.issue base a = s := by
  rw [State.issue, h]

/-- Settles O50: `route_eq_some_iff`, and outside the window neither access becomes a transaction. -/
theorem onlyTheWindowIsRouted : Obligations.OnlyTheWindowIsRouted := by
  refine ⟨route_eq_some_iff, fun s base n addr v h => ?_⟩
  have hroute := route_outside h
  exact ⟨s.issue_of_unrouted (by rw [BusAccess.transaction?, hroute, Option.map_none]),
    s.issue_of_unrouted (by rw [BusAccess.transaction?, hroute, Option.map_none])⟩

end Sys2Proof.Machine
end
